-- ==== Sys2Proof/Word.lean ====
section
/-!
DEFINITION. The words of the BitKey unit: bytes, register-space addresses, key registers, and the two one-bit choices a
command makes (00_scope.md R4, R8; 20_memory.md R28, R29; 30_encoding.md R45, R46).
-/

namespace Sys2Proof

/-- A register or a transaction's data: 8 bits, unsigned (R8, R29). -/
abbrev Byte := BitVec 8

/-- An address of the register space: exactly 6 bits (R28, R36). -/
abbrev Addr := BitVec 6

/-- A key register: 16 bytes, byte 0 first (R13). -/
abbrev Key := Vector Byte 16

/-- The field `SRC` of a command: which key register `BITAT` reads (R46). -/
inductive Src where
  | ka   -- SRC = 0
  | kb   -- SRC = 1
deriving DecidableEq, Repr

/-- The field `FAM` of a command: the key size (R4, R45). -/
inductive Fam where
  | w32    -- FAM = 0: 4 bytes
  | w128   -- FAM = 1: 16 bytes
deriving DecidableEq, Repr

/-- A single bit as a byte, `zext_8` of a bit (R10). -/
def zextBit (b : Bool) : Byte := if b then 1 else 0

end Sys2Proof
end

