-- ==== Sys2Proof/Syntax.lean ====
section
/-!
DEFINITION. The three commands of the unit (spec/opcode_table.json; 30_encoding.md R43 to R46) and the format of a
command byte.
-/

namespace Sys2Proof

/-- A command, one constructor per row of the opcode table. `SRC` is an operand of `BITAT` only: the other two have no
such choice (R46). Every other operand is a fixed register (R50). -/
inductive Instr where
  /-- `BITAT`: one bit of a key (R54). -/
  | bitat (src : Src) (fam : Fam)
  /-- `CPL`: common prefix length of the two keys (R60). -/
  | cpl (fam : Fam)
  /-- `CLASS`: the prefix-length comparator (R68). -/
  | classify (fam : Fam)
deriving DecidableEq, Repr

/-- The four fields of a command byte, as the format `000sfooo` lays them out (R43). -/
structure CommandFields where
  rsv : BitVec 3   -- bits [7:5]
  src : BitVec 1   -- bit [4]
  fam : BitVec 1   -- bit [3]
  op  : BitVec 3   -- bits [2:0]
deriving DecidableEq, Repr

/-- The bit of `SRC` (R46). -/
def Src.bit : Src → BitVec 1
  | .ka => 0
  | .kb => 1

/-- The bit of `FAM` (R45). -/
def Fam.bit : Fam → BitVec 1
  | .w32 => 0
  | .w128 => 1

/-- The fields that select each command (R44 for `OP`; `SRC` is 0 for `CPL` and `CLASS`, R46). -/
def Instr.fields : Instr → CommandFields
  | .bitat src fam => { rsv := 0, src := src.bit, fam := fam.bit, op := 1 }
  | .cpl fam       => { rsv := 0, src := 0, fam := fam.bit, op := 2 }
  | .classify fam  => { rsv := 0, src := 0, fam := fam.bit, op := 3 }

end Sys2Proof
end

