-- ==== Sys2Proof/WellFormed.lean ====
section
/-!
DEFINITION. When the fields of a command byte are those of a legal command: the three conditions of 30_encoding.md R49,
each a check of its own.
-/

namespace Sys2Proof

/-- `RSV` must be 000 (R47). -/
def CommandFields.rsvClear (f : CommandFields) : Bool := f.rsv == 0

/-- `OP` is 001, 010 or 011; the other five values are reserved (R44). -/
def CommandFields.opAssigned (f : CommandFields) : Bool := f.op == 1 || f.op == 2 || f.op == 3

/-- `SRC` must be 0 for `CPL` and `CLASS` (R46). -/
def CommandFields.srcAllowed (f : CommandFields) : Bool := f.src == 0 || !(f.op == 2 || f.op == 3)

/-- All three conditions of R49 hold: the fields are those of a legal command. -/
def CommandFields.wellFormed (f : CommandFields) : Bool := f.rsvClear && f.opAssigned && f.srcAllowed

/-- A command is well-formed when the fields that select it are legal. -/
def Instr.wellFormed (i : Instr) : Bool := i.fields.wellFormed

end Sys2Proof
end

