-- ==== Sys2Proof/Decode.lean ====
section
/-!
DEFINITION. Decoding a command byte and encoding a command (30_encoding.md R43 to R49). The decoder is total on the 256
bytes and refuses the 248 illegal ones by the reason R49 gives.
-/

namespace Sys2Proof

/-- Why a byte is no command (R49). -/
inductive Illegal where
  /-- `RSV` is not 000 (R47). -/
  | reservedBits
  /-- `OP` is 000 or 100 to 111 (R44). -/
  | reservedOp
  /-- `SRC = 1` with `CPL` or `CLASS` (R46). -/
  | sourceSet
deriving DecidableEq, Repr

/-- A byte split into the fields of R43. -/
def fieldsOf (c : Byte) : CommandFields :=
  { rsv := c.extractLsb' 5 3, src := c.extractLsb' 4 1, fam := c.extractLsb' 3 1, op := c.extractLsb' 0 3 }

/-- The byte with the given fields (R43). -/
def CommandFields.toByte (f : CommandFields) : Byte := f.rsv ++ f.src ++ f.fam ++ f.op

/-- `SRC` read from its bit (R46). -/
def srcOf (b : BitVec 1) : Src := if b = 0 then .ka else .kb

/-- `FAM` read from its bit (R45). -/
def famOf (b : BitVec 1) : Fam := if b = 0 then .w32 else .w128

/-- The command that legal fields select, or why there is none (R44, R46, R47, R49). -/
def decodeFields (f : CommandFields) : Except Illegal Instr :=
  if f.rsv ≠ 0 then .error .reservedBits
  else if f.op = 1 then .ok (.bitat (srcOf f.src) (famOf f.fam))
  else if f.op = 2 then if f.src = 0 then .ok (.cpl (famOf f.fam)) else .error .sourceSet
  else if f.op = 3 then if f.src = 0 then .ok (.classify (famOf f.fam)) else .error .sourceSet
  else .error .reservedOp

/-- Decoding of a command byte, total on all 256 values (R48). -/
def decode (c : Byte) : Except Illegal Instr := decodeFields (fieldsOf c)

/-- The command byte of an instruction (R43, R48). -/
def encode (i : Instr) : Byte := i.fields.toByte

/-- What the decoder reads from the table's word `w` of `nbits` bits: every command is one byte (R43), and a word of
another size is none (log entry 14). -/
def decodeTableWord (nbits w : Nat) : Option Instr :=
  if nbits = 8 ∧ w < 256 then (decode (BitVec.ofNat 8 w)).toOption else none

end Sys2Proof
end

