-- ==== Sys2Proof/Config.lean ====
section
/-!
DEFINITION. What the spec leaves open as a value: constants with no body, so that nothing can be proved of what they are.
-/

namespace Sys2Proof

/-- `RESET_DATA` (10_state.md R25, 92 D12): the byte that draw number `draw` leaves at register-space address `addr`
when the unit is reset. DESIGN CHOICE, log entry 4: safe. -/
opaque Config.resetByte (draw addr : Nat) : Byte

/-- The `any` of R30 (92 D30): the data byte that comes with the refusal of a read at draw number `draw`.
DESIGN CHOICE, log entry 5: safe. -/
opaque Config.refusedReadByte (draw : Nat) : Byte

end Sys2Proof
end

