-- ==== Sys2Proof/Machine/State.lean ====
section
/-!
DEFINITION. The state of the BitKey unit (10_state.md R11: 40 bytes), the host transactions it serves (20_memory.md R29)
and the reasons a step could stop.
-/

namespace Sys2Proof.Machine

/-- What the host can do to the unit: the two transactions of R29 and the `Reset` event of R89. -/
inductive HostEvent where
  /-- `HostWrite(a, d)`. -/
  | write (a : Addr) (d : Byte)
  /-- `HostRead(a)`. -/
  | read (a : Addr)
  /-- The hardware reset event; not a transaction, it has no answer. -/
  | reset
deriving DecidableEq, Repr

/-- What the unit answers to a transaction (R29). -/
inductive Answer where
  /-- `HostWrite`: the bit `err`. -/
  | write (err : Bool)
  /-- `HostRead`: the data byte and the bit `err`; with `err = 1` the byte is a free value (R30). -/
  | read (d : Byte) (err : Bool)
deriving DecidableEq, Repr

/-- The five data registers, 35 bytes (R11): written by the host, never by a command (R14). -/
structure DataRegs where
  ka    : Key    -- R13
  kb    : Key    -- R13
  idx   : Byte   -- R15
  plen  : Byte   -- R16
  depth : Byte   -- R16
deriving DecidableEq, Repr

/-- The unit's 40 bytes (`data`, `res`, `cls`, `status`; R11) and, beside them, three fields of the model's own: the host
events still to be served, oldest first (log entry 1), the answers given so far, oldest first (log entry 2), and the
number of the next free value (log entries 4 and 5). -/
structure State where
  data    : DataRegs
  res     : Byte              -- R17
  cls     : Byte              -- R19
  status  : Byte              -- R18
  port    : List HostEvent
  answers : List Answer
  draws   : Nat
deriving DecidableEq, Repr

/-- Reasons to stop with a fault: none. A failed command is a next state with `STATUS.FAULT` latched (R77), and
"The unit cannot hang, be stuck or diverge" (R100). Log entry 9: safe. -/
inductive Fault where
deriving DecidableEq, Repr

/-- Reasons to refuse a step. -/
inductive Refusal where
  /-- Raised by an arm of `exec` whose instruction has no meaning yet; no arm raises it. Safe. -/
  | notModelled (mnemonic : String)
deriving DecidableEq, Repr

/-- The three outcomes of a step of this machine. -/
abbrev Result := Host.Outcome State Fault Refusal

/-- Data registers all zero: the value `State.reset` names for the unspecified `RESET_DATA` of R25.
DESIGN CHOICE, log entry 3: unsafe. -/
def DataRegs.zero : DataRegs :=
  { ka := Vector.replicate 16 0, kb := Vector.replicate 16 0, idx := 0, plen := 0, depth := 0 }

/-- The unit right after a hardware reset that left `data` in the data registers (R24, R25), nothing pending. -/
def State.afterReset (data : DataRegs) : State :=
  { data := data, res := 0, cls := 0, status := 0, port := [], answers := [], draws := 0 }

/-- The machine right after reset: `STATUS`, `RES` and `CLS` as R24 states, the data registers as log entry 3 names. -/
def State.reset : State := State.afterReset DataRegs.zero

end Sys2Proof.Machine
end

