-- ==== Sys2Proof/Machine/Operands.lean ====
section
/-!
DEFINITION. The operands of the commands: key sizes, the selected key register, the bytes and bits of a key
(00_scope.md R4, R6; 30_encoding.md R45, R46, R50; 40_bitat.md R53).
-/

namespace Sys2Proof.Machine

/-- `L`, the key's length in bytes (R4). -/
def famBytes : Fam → Nat
  | .w32  => 4
  | .w128 => 16

/-- `W = 8 * L`, the key's width in bits (R4). -/
def famBits (fam : Fam) : Nat := 8 * famBytes fam

/-- The key register that `SRC` selects (R46). -/
def DataRegs.key (d : DataRegs) : Src → Key
  | .ka => d.ka
  | .kb => d.kb

/-- Byte `j` of a key register, `j` from 0 to 15 (R13). No command and no transaction asks for a later byte; the 0 there
only makes the function total (log entry 7: safe). -/
def keyByte (k : Key) (j : Nat) : Byte := k[j]?.getD 0

/-- A key register with byte `j` replaced (R31). -/
def setKeyByte (k : Key) (j : Nat) (d : Byte) : Key := k.setIfInBounds j d

/-- `bitAt(K, L, i)` (R53): bit `7 - (i mod 8)` of byte `i div 8`. Its value does not depend on `L`, which only bounds
`i`; the command checks the bound first (R54). -/
def bitAt (k : Key) (i : Nat) : Bool := (keyByte k (i / 8)).getLsbD (7 - i % 8)

end Sys2Proof.Machine
end

