-- ==== Sys2Proof/Machine/Flags.lean ====
section
/-!
DEFINITION. The fields of `STATUS` (10_state.md R18) and `CLS` (R19), the fault causes (60_exceptions.md R73) and the bytes
the commands write into the two registers.
-/

namespace Sys2Proof.Machine

/-- The three fault causes (R73). -/
inductive Cause where
  | bounds
  | invalidArg
  | illegalCmd
deriving DecidableEq, Repr

/-- The three outcomes of the comparator (R67). -/
inductive Kind where
  | diverge
  | exact
  | descend
deriving DecidableEq, Repr

/-- The cause codes of R73. -/
def Cause.code : Cause → Nat
  | .bounds     => 1
  | .invalidArg => 2
  | .illegalCmd => 3

/-- The codes of `KIND` (R19, R67); 0 is NONE. -/
def Kind.code : Kind → Nat
  | .diverge => 1
  | .exact   => 2
  | .descend => 3

/-- `STATUS.VALID`, bit 0 (R18). -/
def statusValid (v : Byte) : Bool := v.getLsbD 0

/-- `STATUS.FAULT`, bit 1 (R18). -/
def statusFault (v : Byte) : Bool := v.getLsbD 1

/-- `STATUS.CAUSE`, bits [3:2] (R18). -/
def statusCause (v : Byte) : Nat := (v.extractLsb' 2 2).toNat

/-- `STATUS[7:4]`, always 0 (R18). -/
def statusUpper (v : Byte) : Nat := (v.extractLsb' 4 4).toNat

/-- `CLS.KIND`, bits [1:0] (R19). -/
def clsKind (v : Byte) : Nat := (v.extractLsb' 0 2).toNat

/-- `CLS.CHILD`, bit 2 (R19). -/
def clsChild (v : Byte) : Bool := v.getLsbD 2

/-- `CLS[7:3]`, always 0 (R19). -/
def clsUpper (v : Byte) : Nat := (v.extractLsb' 3 5).toNat

/-- The `STATUS` of a successful command: `VALID = 1`, `FAULT = 0`, `CAUSE = 0` (R54, R60, R68). -/
def statusDone : Byte := 0x01

/-- The `STATUS` of a latched fault: `4 * cause + 2` (R77). -/
def statusFaulted (c : Cause) : Byte := BitVec.ofNat 8 (4 * c.code + 2)

/-- The `CLS` of `CLASS`: `4 * child + kind` (R68). -/
def clsByte (kind : Kind) (child : Bool) : Byte := BitVec.ofNat 8 (4 * child.toNat + kind.code)

/-- `STATUS.VALID = 1`: `RES` and `CLS` hold a result (R18). -/
def State.valid (s : State) : Bool := statusValid s.status

/-- `STATUS.FAULT = 1`: a fault is latched (R18). -/
def State.latched (s : State) : Bool := statusFault s.status

end Sys2Proof.Machine
end

