-- ==== Sys2Proof/Machine/Ops.lean ====
section
/-!
DEFINITION. The shared operations: answering the host, ending a command, taking a fault (60_exceptions.md R77), refusing,
and the two resets that clear a fault (70_reset_and_hazards.md R89, R91).
-/

namespace Sys2Proof.Machine

/-- The state after giving the host an answer (R29; log entry 2). -/
def State.reply (s : State) (a : Answer) : State := { s with answers := s.answers ++ [a] }

/-- The state with other data registers. -/
def State.withData (s : State) (d : DataRegs) : State := { s with data := d }

/-- The state with another `STATUS`. -/
def State.withStatus (s : State) (v : Byte) : State := { s with status := v }

/-- The state with other result registers and `STATUS`. -/
def State.withResult (s : State) (res cls status : Byte) : State :=
  { s with res := res, cls := cls, status := status }

/-- The state after one more free value has been drawn (log entries 4 and 5). -/
def State.drawn (s : State) : State := { s with draws := s.draws + 1 }

/-- The state with the oldest host event taken off the port (R39). -/
def State.withPort (s : State) (p : List HostEvent) : State := { s with port := p }

/-- A write that is performed: `err = 0` (R29). -/
def acceptWrite (s : State) : Result := .next (s.reply (.write false))

/-- A write that is refused: `err = 1`, nothing changes (R81). -/
def refuseWrite (s : State) : Result := .next (s.reply (.write true))

/-- A read that is performed: the byte and `err = 0` (R30). -/
def acceptRead (d : Byte) (s : State) : Result := .next (s.reply (.read d false))

/-- A read that is refused: an unspecified byte and `err = 1` (R30; log entry 5). -/
def refuseRead (s : State) : Result :=
  .next (s.drawn.reply (.read (Config.refusedReadByte s.draws) true))

/-- A command that succeeds: `RES`, `CLS`, `STATUS <- 0x01`, `err = 0` (R54, R60, R68). -/
def succeed (res cls : Byte) (s : State) : Result := acceptWrite (s.withResult res cls statusDone)

/-- `raise Fault(cause)`, the only way a fault is taken: `STATUS <- 4 * cause + 2`, nothing else changes, the `CMD` write
answers `err = 1` (R77). -/
def raiseFault (cause : Cause) (s : State) : Result :=
  .next ((s.withStatus (statusFaulted cause)).reply (.write true))

/-- The first test of every `CMD` write (R78, R79): with a fault latched the write is refused and nothing changes. -/
def unlessLatched (s : State) (run : State → Result) : Result := if s.latched then refuseWrite s else run s

/-- `SoftReset()`: `STATUS`, `RES` and `CLS` to 0, the data registers kept, `err = 0` (R91). -/
def softReset (s : State) : Result := acceptWrite (s.withResult 0 0 0)

/-- `RESET_DATA` of draw number `n`: each byte a free value, by its register-space address (R25; log entry 4). -/
def resetData (n : Nat) : DataRegs :=
  { ka := Vector.ofFn fun j => Config.resetByte n j
    kb := Vector.ofFn fun j => Config.resetByte n (0x10 + j)
    idx := Config.resetByte n 0x20
    plen := Config.resetByte n 0x21
    depth := Config.resetByte n 0x22 }

/-- The `Reset` event (R89): `STATUS`, `RES` and `CLS` to 0, the data registers to a fresh draw; no answer. -/
def hardReset (s : State) : Result := .next (((s.withData (resetData s.draws)).withResult 0 0 0).drawn)

end Sys2Proof.Machine
end

