-- ==== Sys2Proof/Machine/Bitat.lean ====
section
/-!
DEFINITION. The command `BITAT` (40_bitat.md R54).
-/

namespace Sys2Proof.Machine

/-- `BITAT` (R54): BOUNDS when `IDX >= W`; else `RES` is the bit at position `IDX` of the selected key, `CLS` is 0. -/
def execBitat (src : Src) (fam : Fam) (s : State) : Result :=
  unlessLatched s fun s =>
    if s.data.idx.toNat ≥ famBits fam then raiseFault .bounds s
    else succeed (zextBit (bitAt (s.data.key src) s.data.idx.toNat)) 0 s

end Sys2Proof.Machine
end

