-- ==== Sys2Proof/Machine/Cpl.lean ====
section
/-!
DEFINITION. The leading-zero counter (00_scope.md R9), the common prefix length (41_commonprefixlen.md R59) and the
command `CPL` (R60).
-/

namespace Sys2Proof.Machine

/-- `clz8`, row by row from the table of R9. At 0, where R9 defines nothing and lets a model say 8, it is 8; no result
depends on it (log entry 7: safe). -/
def clz8 (x : Byte) : Nat :=
  if 0x80 ≤ x.toNat then 0
  else if 0x40 ≤ x.toNat then 1
  else if 0x20 ≤ x.toNat then 2
  else if 0x10 ≤ x.toNat then 3
  else if 0x08 ≤ x.toNat then 4
  else if 0x04 ≤ x.toNat then 5
  else if 0x02 ≤ x.toNat then 6
  else if 0x01 ≤ x.toNat then 7
  else 8

/-- The scan of R59 from byte `j` on, over the `n` bytes that are left. -/
def cplFrom (a b : Key) : (n j : Nat) → Nat
  | 0, j => 8 * j
  | n + 1, j =>
    let x := keyByte a j ^^^ keyByte b j
    if x ≠ 0 then 8 * j + clz8 x else cplFrom a b n (j + 1)

/-- `cpl(A, B, L)` (R59). -/
def cpl (a b : Key) (len : Nat) : Nat := cplFrom a b len 0

/-- `CPL` (R60): `RES` is the common prefix length of the two keys, `CLS` is 0; it raises no fault. -/
def execCpl (fam : Fam) (s : State) : Result :=
  unlessLatched s fun s => succeed (BitVec.ofNat 8 (cpl s.data.ka s.data.kb (famBytes fam))) 0 s

end Sys2Proof.Machine
end

