-- ==== Sys2Proof/Machine/Classify.lean ====
section
/-!
DEFINITION. The prefix-length comparator and the command `CLASS` (42_classify.md R66 to R69).
-/

namespace Sys2Proof.Machine

/-- The bounded common length `m` (R66). -/
def boundedLength (d : DataRegs) (fam : Fam) : Nat :=
  min (cpl d.ka d.kb (famBytes fam)) (min d.plen.toNat d.depth.toNat)

/-- The outcome of the comparator, its conditions in the order of R67. -/
def outcomeKind (m plen depth : Nat) : Kind :=
  if m < depth then .diverge else if plen = depth then .exact else .descend

/-- `CHILD` (R67): the bit at position `DEPTH` of `KA` for DESCEND, else 0. -/
def childBit (kind : Kind) (ka : Key) (depth : Nat) : Bool :=
  match kind with
  | .diverge => false
  | .exact   => false
  | .descend => bitAt ka depth

/-- `CLASS` (R68): INVALID_ARG when `PLEN > W` or `DEPTH > W` (R69); else `RES` is `m` and `CLS` the outcome. -/
def execClassify (fam : Fam) (s : State) : Result :=
  unlessLatched s fun s =>
    if s.data.plen.toNat > famBits fam ∨ s.data.depth.toNat > famBits fam then raiseFault .invalidArg s
    else
      let m := boundedLength s.data fam
      let kind := outcomeKind m s.data.plen.toNat s.data.depth.toNat
      succeed (BitVec.ofNat 8 m) (clsByte kind (childBit kind s.data.ka s.data.depth.toNat)) s

end Sys2Proof.Machine
end

