-- ==== Sys2Proof/Machine/Dispatch.lean ====
section
/-!
DEFINITION. From a command to its meaning, one arm per constructor of Instr.
-/

namespace Sys2Proof.Machine

def exec (i : Instr) (s : State) : Host.Outcome State Fault Refusal :=
  match i with
  | .bitat src fam => Sys2Proof.Machine.execBitat src fam s
  | .cpl fam => Sys2Proof.Machine.execCpl fam s
  | .classify fam => Sys2Proof.Machine.execClassify fam s

end Sys2Proof.Machine
end

