-- ==== Sys2Proof/Machine/Port.lean ====
section
/-!
DEFINITION. The register space and the host's transactions (20_memory.md R28 to R31), the execution of a written command
byte (30_encoding.md R48) and the host sequences of R52.
-/

namespace Sys2Proof.Machine

/-- What an address of the register space names (the table of R28). -/
inductive Loc where
  | ka (j : Nat)
  | kb (j : Nat)
  | idx
  | plen
  | depth
  | cmd
  | res
  | cls
  | status
  | srst
  | unmapped
deriving DecidableEq, Repr

/-- The address map, row by row from R28. -/
def locate (a : Addr) : Loc :=
  if a.toNat < 0x10 then .ka a.toNat
  else if a.toNat < 0x20 then .kb (a.toNat - 0x10)
  else if a.toNat = 0x20 then .idx
  else if a.toNat = 0x21 then .plen
  else if a.toNat = 0x22 then .depth
  else if a.toNat = 0x23 then .cmd
  else if a.toNat = 0x24 then .res
  else if a.toNat = 0x25 then .cls
  else if a.toNat = 0x26 then .status
  else if a.toNat = 0x27 then .srst
  else .unmapped

/-- The byte a read of a location gives, none where the read is refused (R30). -/
def readLoc (s : State) : Loc → Option Byte
  | .ka j     => some (keyByte s.data.ka j)
  | .kb j     => some (keyByte s.data.kb j)
  | .idx      => some s.data.idx
  | .plen     => some s.data.plen
  | .depth    => some s.data.depth
  | .cmd      => none
  | .res      => if s.valid then some s.res else none
  | .cls      => if s.valid then some s.cls else none
  | .status   => some s.status
  | .srst     => none
  | .unmapped => none

/-- `HostRead(a)` (R30). -/
def hostRead (a : Addr) (s : State) : Result :=
  match readLoc s (locate a) with
  | some d => acceptRead d s
  | none   => refuseRead s

/-- A `CMD` write of a byte that is no command: refused with a fault latched, else ILLEGAL_CMD (R49, R76, R78). -/
def execIllegal (s : State) : Result := unlessLatched s (raiseFault .illegalCmd)

/-- `Execute(c)`, total on all 256 bytes (R48). The latch is tested first on either path, by `unlessLatched` in the
command's meaning and in `execIllegal`; decoding reads the byte alone, so the order of the two is the one of R48
(log entry 8). -/
def executeByte (c : Byte) (s : State) : Result :=
  match decode c with
  | .ok i    => exec i s
  | .error _ => execIllegal s

/-- `HostWrite(a, d)` (R31). -/
def hostWrite (a : Addr) (d : Byte) (s : State) : Result :=
  match locate a with
  | .ka j     => acceptWrite (s.withData { s.data with ka := setKeyByte s.data.ka j d })
  | .kb j     => acceptWrite (s.withData { s.data with kb := setKeyByte s.data.kb j d })
  | .idx      => acceptWrite (s.withData { s.data with idx := d })
  | .plen     => acceptWrite (s.withData { s.data with plen := d })
  | .depth    => acceptWrite (s.withData { s.data with depth := d })
  | .cmd      => executeByte d s
  | .res      => refuseWrite s
  | .cls      => refuseWrite s
  | .status   => refuseWrite s
  | .srst     => softReset s
  | .unmapped => refuseWrite s

/-- The unit's answer to one host event (R29, R89). -/
def serve (ev : HostEvent) (s : State) : Result :=
  match ev with
  | .write a d => hostWrite a d s
  | .read a    => hostRead a s
  | .reset     => hardReset s

/-- The address of `CMD` (R28). -/
def cmdAddr : Addr := 0x23

/-- A command as the host gives it: its byte written to `CMD` (R51). -/
def issue (i : Instr) : HostEvent := .write cmdAddr (encode i)

/-- Writes of the bytes `bs` to the ascending addresses from `base` on (R52). -/
def writesFrom (base : Nat) : List Byte → List HostEvent
  | []      => []
  | b :: bs => .write (BitVec.ofNat 6 base) b :: writesFrom (base + 1) bs

/-- `LDKA.32 b0 b1 b2 b3` (R52). -/
def ldka32 (b0 b1 b2 b3 : Byte) : List HostEvent := writesFrom 0x00 [b0, b1, b2, b3]

/-- `LDKB.32 b0 b1 b2 b3` (R52). -/
def ldkb32 (b0 b1 b2 b3 : Byte) : List HostEvent := writesFrom 0x10 [b0, b1, b2, b3]

/-- `LDKA.128 b0 ... b15` (R52). -/
def ldka128 (k : Key) : List HostEvent := writesFrom 0x00 k.toList

/-- `LDKB.128 b0 ... b15` (R52). -/
def ldkb128 (k : Key) : List HostEvent := writesFrom 0x10 k.toList

/-- `SETIDX n` (R52). -/
def setIdx (n : Byte) : List HostEvent := [.write 0x20 n]

/-- `SETPLEN n` (R52). -/
def setPlen (n : Byte) : List HostEvent := [.write 0x21 n]

/-- `SETDEPTH n` (R52). -/
def setDepth (n : Byte) : List HostEvent := [.write 0x22 n]

/-- `SRST` (R52). -/
def srst : List HostEvent := [.write 0x27 0x00]

end Sys2Proof.Machine
end

