-- ==== Sys2Proof/Machine/Step.lean ====
section
/-!
DEFINITION. One step: the unit serves the oldest host event (20_memory.md R39), and rests when there is none.
-/

namespace Sys2Proof.Machine

/-- Host transactions and reset events are served one at a time, each completely, in the order they arrive (R39). With
none pending the unit is at rest and nothing changes (R39, R100; log entry 6). -/
def step (s : State) : Host.Outcome State Fault Refusal :=
  match s.port with
  | []         => .next s
  | ev :: rest => serve ev (s.withPort rest)

/-- The state in which the host's next transaction is the write of the table's word `w` to `CMD` (R21: a command is
executed by the write that carries it). A command is one byte, so `nbits` plays no part (log entry 1). -/
def State.withFetchWord (s : State) (_nbits w : Nat) : State :=
  { s with port := .write cmdAddr (BitVec.ofNat 8 w) :: s.port }

end Sys2Proof.Machine
end

