-- ==== Sys2Proof/Safety.lean ====
section
/-!
DEFINITION. What the spec calls a legal state of the unit (10_state.md R18, R19, R20).
-/

namespace Sys2Proof.Machine

/-- The only values `STATUS` ever takes (R18). -/
def legalStatus : List Byte := [0x00, 0x01, 0x06, 0x0A, 0x0E]

/-- The only values `CLS` ever takes (R19). -/
def legalCls : List Byte := [0x00, 0x01, 0x02, 0x03, 0x07]

/-- The invariants of R20, clause by clause. -/
abbrev State.Inv (s : State) : Prop :=
  statusUpper s.status = 0 ∧
  (statusFault s.status = true → statusValid s.status = false ∧ statusCause s.status ≠ 0) ∧
  (statusFault s.status = false → statusCause s.status = 0) ∧
  clsUpper s.cls = 0 ∧
  (clsChild s.cls = true → clsKind s.cls = 3) ∧
  s.res.toNat ≤ 128

/-- `STATUS` and `CLS` hold one of the values the spec lists for them (R18, R19). -/
abbrev State.ListedValues (s : State) : Prop := s.status ∈ legalStatus ∧ s.cls ∈ legalCls

/-- The unit's 40 bytes (R11), without the model's own fields: what "state" means where the spec says that a transaction
changes no state. -/
abbrev State.unit (s : State) : DataRegs × Byte × Byte × Byte := (s.data, s.res, s.cls, s.status)

/-- The three conditions of R49 on a command byte, as numbers: `RSV` is `c[7:5]`, `SRC` is `c[4]`, `OP` is `c[2:0]`. -/
abbrev IllegalByte (c : Byte) : Prop :=
  c.toNat % 8 ∈ [0, 4, 5, 6, 7] ∨ c.toNat / 32 ≠ 0 ∨ (c.toNat / 16 % 2 = 1 ∧ c.toNat % 8 ∈ [2, 3])

/-- The operand check of a legal command byte fails: BOUNDS for `BITAT`, INVALID_ARG for `CLASS` (R73, R78). -/
abbrev OperandCheckFails (c : Byte) (d : DataRegs) : Prop :=
  (c ∈ ([0x01, 0x11] : List Byte) ∧ 32 ≤ d.idx.toNat) ∨
  (c ∈ ([0x09, 0x19] : List Byte) ∧ 128 ≤ d.idx.toNat) ∨
  (c = 0x03 ∧ (32 < d.plen.toNat ∨ 32 < d.depth.toNat)) ∨
  (c = 0x0B ∧ (128 < d.plen.toNat ∨ 128 < d.depth.toNat))

/-- The access errors of R81, transaction by transaction. -/
abbrev AccessError (s : State) : HostEvent → Prop
  | .read a =>
    ((a = 0x24 ∨ a = 0x25) ∧ statusValid s.status = false) ∨ a = 0x23 ∨ a = 0x27 ∨ 0x28 ≤ a.toNat
  | .write a _ =>
    a = 0x24 ∨ a = 0x25 ∨ a = 0x26 ∨ 0x28 ≤ a.toNat ∨ (a = 0x23 ∧ statusFault s.status = true)
  | .reset => False

/-- A `CMD` write whose command faults (R77, R81): no fault latched, and an illegal byte or a failed operand check. -/
abbrev CommandFaults (s : State) : HostEvent → Prop
  | .write a c => a = 0x23 ∧ statusFault s.status = false ∧ (IllegalByte c ∨ OperandCheckFails c s.data)
  | .read _ => False
  | .reset => False

end Sys2Proof.Machine
end

