-- ==== Sys2Proof/Certificates/Slice0/Obligations.lean ====
section
/-!
DEFINITION. What is claimed of the BitKey unit, from the rules of spec/. Every statement is over all states, those no run
reaches among them; where a premise names a state of the latch it is the one the rule names. A free value of the model
(`State.draws`, log entries 4 and 5) is never fixed: statements say "some data byte" or "some data registers".
-/

open Sys2Proof Sys2Proof.Machine

/-! ### Encoding -/

/-- Every command has exactly one byte: decoding its encoding gives it back, and a byte that decodes to a command is that
command's encoding. 30_encoding.md sections 1 and 2. -/
def Obligations.EncodeDecodeAgree : Prop :=
  (∀ i : Instr, i.wellFormed = true → decode (encode i) = .ok i) ∧
  ∀ (c : Byte) (i : Instr), decode c = .ok i → encode i = c ∧ i.wellFormed = true

/-- The eight legal command bytes decode to the commands of the table of 30_encoding.md section 2. -/
def Obligations.LegalBytesDecode : Prop :=
  decode 0x01 = .ok (.bitat .ka .w32) ∧ decode 0x09 = .ok (.bitat .ka .w128) ∧
  decode 0x11 = .ok (.bitat .kb .w32) ∧ decode 0x19 = .ok (.bitat .kb .w128) ∧
  decode 0x02 = .ok (.cpl .w32) ∧ decode 0x0A = .ok (.cpl .w128) ∧
  decode 0x03 = .ok (.classify .w32) ∧ decode 0x0B = .ok (.classify .w128)

/-- R49, R47, R76: the bytes with a reserved `OP`, a bit of `RSV` set, or `SRC = 1` on `CPL` or `CLASS` are exactly the 248
bytes other than the eight, and writing one to `CMD` with no fault latched sets `STATUS` to 0x0E, changes nothing else
and answers `err = 1`. -/
def Obligations.IllegalByteRaisesIllegalCmd : Prop :=
  (∀ c : Byte, IllegalByte c ↔ c ∉ ([0x01, 0x09, 0x11, 0x19, 0x02, 0x0A, 0x03, 0x0B] : List Byte)) ∧
  ((List.range 256).filter fun n => decide (IllegalByte (BitVec.ofNat 8 n))).length = 248 ∧
  ∀ (c : Byte) (s : State) (rest : List HostEvent),
    s.port = .write 0x23 c :: rest → IllegalByte c → statusFault s.status = false →
      step s = .next { s with port := rest, status := 0x0E, answers := s.answers ++ [.write true] }

/-! ### Steps -/

/-- A written byte that decodes to a command runs that command, on the state with the write taken off the port.
30_encoding.md section 2. -/
def Obligations.StepRunsDecodedCommand : Prop :=
  ∀ (s : State) (c : Byte) (i : Instr) (rest : List HostEvent),
    s.port = .write 0x23 c :: rest → decode c = .ok i → step s = exec i { s with port := rest }

/-- Events are served one at a time in the order they arrive, each in one step, and none sees a later one; a transaction
gets one answer, a reset none; with nothing pending nothing changes. 20_memory.md section 5; 70_reset_and_hazards.md
section 3, whose sentence "every transaction is answered, and answered in one step" the spec marks as derived. -/
def Obligations.EventsServedOneAtATime : Prop :=
  (∀ s : State, s.port = [] → step s = .next s) ∧
  ∀ (s : State) (ev : HostEvent) (rest : List HostEvent), s.port = ev :: rest →
    ∃ t : State, step s = .next t ∧ t.port = rest ∧
      (ev = .reset → t.answers = s.answers) ∧
      (ev ≠ .reset → ∃ a : Answer, t.answers = s.answers ++ [a]) ∧
      ∀ later : List HostEvent, step { s with port := ev :: later } = .next { t with port := later }

/-! ### BITAT -/

/-- R53: at a position inside a key of `L` bytes, `bitAt` is bit `7 - (i mod 8)` of byte `i div 8`, by both formulas of
the rule; that byte is one of the first `L`, and no other byte matters. -/
def Obligations.BitAtIsBitOfByte : Prop :=
  ∀ (k : Key) (fam : Fam) (i : Nat), i < 8 * famBytes fam →
    i / 8 ≤ famBytes fam - 1 ∧
    ∀ h : i / 8 < 16,
      bitAt k i = k[i / 8].getLsbD (7 - i % 8) ∧
      (bitAt k i).toNat = k[i / 8].toNat / 2 ^ (7 - i % 8) % 2 ∧
      ∀ k' : Key, k'[i / 8] = k[i / 8] → bitAt k' i = bitAt k i

/-- `BITAT` with `IDX < W` completes: `RES` is the bit, zero-extended, `CLS` is 0, `STATUS` is 0x01, `err = 0`, and nothing
else changes. 40_bitat.md section 2. -/
def Obligations.BitatReturnsTheBit : Prop :=
  ∀ (src : Src) (fam : Fam) (s : State) (h : s.data.idx.toNat / 8 < 16),
    statusFault s.status = false → s.data.idx.toNat < (if fam = .w32 then 32 else 128) →
      exec (.bitat src fam) s =
        .next { s with
          res := BitVec.ofNat 8
            ((if src = .ka then s.data.ka else s.data.kb)[s.data.idx.toNat / 8].toNat
              / 2 ^ (7 - s.data.idx.toNat % 8) % 2)
          cls := 0x00
          status := 0x01
          answers := s.answers ++ [.write false] }

/-- R74: `BITAT` raises BOUNDS exactly when `IDX >= 8*L`, whatever else the registers hold, and no other command raises
it. -/
def Obligations.BoundsFaultExactly : Prop :=
  (∀ (src : Src) (fam : Fam) (s : State), statusFault s.status = false →
    (exec (.bitat src fam) s = .next { s with status := 0x06, answers := s.answers ++ [.write true] } ↔
      s.data.idx.toNat ≥ 8 * (if fam = .w32 then 4 else 16))) ∧
  ∀ (fam : Fam) (s t : State), statusFault s.status = false →
    exec (.cpl fam) s = .next t ∨ exec (.classify fam) s = .next t → t.status ≠ 0x06

/-- R55: the bit `BITAT` returns is the raw bit of the register whatever the prefix length: with any value in `PLEN`, at or
beyond `IDX` or before it, the command does what it does with the value there was, but for `PLEN` itself, and `RES` is the
bit at `IDX`. -/
def Obligations.BitatIgnoresPrefixLength : Prop :=
  ∀ (src : Src) (fam : Fam) (s t : State) (p : Byte), exec (.bitat src fam) s = .next t →
    exec (.bitat src fam) { s with data := { s.data with plen := p } } =
      .next { t with data := { t.data with plen := p } } ∧
    (t.status = 0x01 → statusFault s.status = false →
      t.res = zextBit (bitAt (s.data.key src) s.data.idx.toNat))

/-- With `FAM = 0` the outcome of `BITAT` is a function of `IDX` and bytes 0 to 3 of the selected key register: two states
that agree on those get the same `err`, the same `STATUS` and, on success, the same `RES`. 40_bitat.md section 3, which
marks it as derived. -/
def Obligations.Bitat32ReadsFourBytes : Prop :=
  ∀ (src : Src) (s u : State), statusFault s.status = false → statusFault u.status = false →
    s.data.idx = u.data.idx →
    (∀ j (_ : j < 4), (s.data.key src)[j] = (u.data.key src)[j]) →
      ∃ (t v : State) (e : Bool), exec (.bitat src .w32) s = .next t ∧ exec (.bitat src .w32) u = .next v ∧
        t.answers = s.answers ++ [.write e] ∧ v.answers = u.answers ++ [.write e] ∧
        t.status = v.status ∧ (e = false → t.res = v.res ∧ t.cls = v.cls)

/-- The bits `bitAt` returns rebuild every byte of the key, and two keys are the same over `L` bytes exactly when `bitAt`
agrees on all `8*L` positions. 40_bitat.md section 3, which marks it as derived. -/
def Obligations.BitsRebuildTheKey : Prop :=
  (∀ (k : Key) (j : Nat) (_ : j < 16),
    k[j].toNat = ((List.range 8).map fun b => (bitAt k (8 * j + b)).toNat * 2 ^ (7 - b)).sum) ∧
  ∀ (a b : Key) (fam : Fam),
    (∀ j (_ : j < 16), j < famBytes fam → a[j] = b[j]) ↔ ∀ i, i < 8 * famBytes fam → bitAt a i = bitAt b i

/-! ### CPL -/

/-- R9: for a byte that is not zero, `clz8` counts the 0 bits from bit 7 down to the first 1 bit, and is
`7 - floor(log2(x))`; with it the table of the rule. -/
def Obligations.Clz8CountsLeadingZeros : Prop :=
  ∀ x : Byte, x ≠ 0 →
    clz8 x = 7 - Nat.log2 x.toNat ∧ clz8 x ≤ 7 ∧
    x.getLsbD (7 - clz8 x) = true ∧ (∀ b < 8, 7 - clz8 x < b → x.getLsbD b = false) ∧
    2 ^ (7 - clz8 x) ≤ x.toNat ∧ x.toNat < 2 ^ (8 - clz8 x)

/-- R58, R59: the XOR byte of two key bytes is 0 exactly when they are the same, and its bit `7 - p` marks key position
`8*j + p` as different; at the first non-zero XOR byte `x_f` the common prefix length is `8*f + clz8(x_f)`; when there is none it is
`8*L`; it exists exactly when the keys differ in their first `L` bytes; and no byte from `L` on matters. -/
def Obligations.CplStopsAtFirstDifference : Prop :=
  ∀ (a b : Key) (fam : Fam),
    (∀ j (_ : j < 16),
      (a[j] ^^^ b[j] = 0 ↔ a[j] = b[j]) ∧
      ∀ p, p < 8 → ((a[j] ^^^ b[j]).getLsbD (7 - p) = true ↔ bitAt a (8 * j + p) ≠ bitAt b (8 * j + p))) ∧
    ((∀ j (_ : j < 16), j < famBytes fam → a[j] = b[j]) → cpl a b (famBytes fam) = 8 * famBytes fam) ∧
    (∀ f (h : f < 16), f < famBytes fam → (∀ j (_ : j < f), a[j] ^^^ b[j] = 0) → a[f] ^^^ b[f] ≠ 0 →
      cpl a b (famBytes fam) = 8 * f + clz8 (a[f] ^^^ b[f])) ∧
    ((∃ f, ∃ h : f < 16, f < famBytes fam ∧ (∀ j (_ : j < f), a[j] ^^^ b[j] = 0) ∧ a[f] ^^^ b[f] ≠ 0) ↔
      ∃ j, ∃ h : j < 16, j < famBytes fam ∧ a[j] ≠ b[j]) ∧
    ∀ a' b' : Key, (∀ j (_ : j < 16), j < famBytes fam → a'[j] = a[j] ∧ b'[j] = b[j]) →
      cpl a' b' (famBytes fam) = cpl a b (famBytes fam)

/-- `CPL` completes on every content of the registers: `RES` is the common prefix length of the first `L` bytes, `CLS` is
0, `STATUS` is 0x01, `err = 0`, and nothing else changes. 41_commonprefixlen.md section 2. -/
def Obligations.CplReturnsCommonLength : Prop :=
  ∀ (fam : Fam) (s : State), statusFault s.status = false →
    exec (.cpl fam) s =
      .next { s with
        res := BitVec.ofNat 8 (cpl s.data.ka s.data.kb (if fam = .w32 then 4 else 16))
        cls := 0x00
        status := 0x01
        answers := s.answers ++ [.write false] }

/-- R61: `cpl` is symmetric for all contents, so `CPL` gives the same `RES` with the two key registers exchanged. -/
def Obligations.CplIsSymmetric : Prop :=
  (∀ (a b : Key) (len : Nat), cpl a b len = cpl b a len) ∧
  ∀ (fam : Fam) (s : State), statusFault s.status = false →
    ∃ t u : State, exec (.cpl fam) s = .next t ∧
      exec (.cpl fam) { s with data := { s.data with ka := s.data.kb, kb := s.data.ka } } = .next u ∧
      t.res = u.res

/-- R62: `cpl` is between 0 and `8*L`; it is `8*L` exactly when the first `L` bytes agree, so it is for a key and itself;
for keys that differ it is at most `8*L - 1`. -/
def Obligations.CplRangeAndFullWidth : Prop :=
  ∀ (a b : Key) (fam : Fam),
    cpl a b (famBytes fam) ≤ 8 * famBytes fam ∧
    (cpl a b (famBytes fam) = 8 * famBytes fam ↔ ∀ j (_ : j < 16), j < famBytes fam → a[j] = b[j]) ∧
    cpl a a 4 = 32 ∧ cpl a a 16 = 128 ∧
    ((∃ j, ∃ (_ : j < 16), j < famBytes fam ∧ a[j] ≠ b[j]) →
      cpl a b (famBytes fam) ≤ 8 * (famBytes fam - 1) + 7)

/-- The common prefix length is the one number `c` such that the keys agree at every position below `c` and differ at `c`
if `c < 8*L`. 41_commonprefixlen.md section 3, which marks it as derived. -/
def Obligations.CplCharacterisedByBits : Prop :=
  ∀ (a b : Key) (fam : Fam) (c : Nat), c ≤ 8 * famBytes fam →
    (c = cpl a b (famBytes fam) ↔
      (∀ i, i < c → bitAt a i = bitAt b i) ∧ (c < 8 * famBytes fam → bitAt a c ≠ bitAt b c))

/-- With `FAM = 0` the `RES` of `CPL` is a function of bytes 0 to 3 of the two key registers, and is at most 32.
41_commonprefixlen.md section 3, which marks it as derived. -/
def Obligations.Cpl32ReadsFourBytes : Prop :=
  ∀ (s u : State), statusFault s.status = false → statusFault u.status = false →
    (∀ j (_ : j < 4), s.data.ka[j] = u.data.ka[j] ∧ s.data.kb[j] = u.data.kb[j]) →
      ∃ t v : State, exec (.cpl .w32) s = .next t ∧ exec (.cpl .w32) u = .next v ∧
        t.res = v.res ∧ t.res.toNat ≤ 32

/-- The two families on the same registers: below 32 they agree, and at 32 the longer one is at least 32.
41_commonprefixlen.md section 3, which marks it as derived. -/
def Obligations.CplFamiliesAgree : Prop :=
  ∀ a b : Key,
    (cpl a b 4 < 32 → cpl a b 16 = cpl a b 4) ∧ (cpl a b 4 = 32 → 32 ≤ cpl a b 16)

/-! ### CLASS -/

/-- R66, R67: `CLASS` with `PLEN` and `DEPTH` at most `W` completes with `RES = m`, the least of the common prefix length,
`PLEN` and `DEPTH`, and the outcome of the first condition that holds: DIVERGE (`KIND` 1) if `m < DEPTH`, else EXACT (2) if
`PLEN = DEPTH`, else DESCEND (3) with `CHILD` the bit of `KA` at position `DEPTH`; `CHILD` is 0 otherwise. `STATUS` is 0x01,
`err = 0`, and nothing else changes. -/
def Obligations.ClassifyReturnsOutcome : Prop :=
  ∀ (fam : Fam) (s : State), statusFault s.status = false →
    s.data.plen.toNat ≤ (if fam = .w32 then 32 else 128) →
    s.data.depth.toNat ≤ (if fam = .w32 then 32 else 128) →
      ∀ m : Nat, m = min (min (cpl s.data.ka s.data.kb (famBytes fam)) s.data.plen.toNat) s.data.depth.toNat →
        exec (.classify fam) s =
          .next { s with
            res := BitVec.ofNat 8 m
            cls :=
              if m < s.data.depth.toNat then 0x01
              else if s.data.plen = s.data.depth then 0x02
              else if bitAt s.data.ka s.data.depth.toNat then 0x07 else 0x03
            status := 0x01
            answers := s.answers ++ [.write false] }

/-- R69, R75: `CLASS` raises INVALID_ARG exactly when `PLEN > W` or `DEPTH > W`, whatever else the registers hold; for
`FAM = 0` that is 33 to 255, for `FAM = 1` 129 to 255. -/
def Obligations.InvalidArgFaultExactly : Prop :=
  ∀ (fam : Fam) (s : State), statusFault s.status = false →
    (exec (.classify fam) s = .next { s with status := 0x0A, answers := s.answers ++ [.write true] } ↔
      s.data.plen.toNat > 8 * (if fam = .w32 then 4 else 16) ∨
      s.data.depth.toNat > 8 * (if fam = .w32 then 4 else 16))

/-- What follows for a `CLASS` that does not fault, items (a) to (f) of 42_classify.md section 3, which marks them as
derived. In DIVERGE a common prefix length below both lengths is `RES`, and the keys differ there; comparing `RES` with
`PLEN` tells that case from a prefix that ended first; and `BITAT` at `RES` succeeds on either key. -/
def Obligations.ClassifyConsequences : Prop :=
  ∀ (fam : Fam) (s t : State), statusFault s.status = false →
    s.data.plen.toNat ≤ 8 * famBytes fam → s.data.depth.toNat ≤ 8 * famBytes fam →
    exec (.classify fam) s = .next t →
      clsKind t.cls ∈ [1, 2, 3] ∧
      t.res.toNat ≤ s.data.depth.toNat ∧
      (t.res.toNat = s.data.depth.toNat ↔
        s.data.depth.toNat ≤ cpl s.data.ka s.data.kb (famBytes fam) ∧
        s.data.depth.toNat ≤ s.data.plen.toNat) ∧
      (clsKind t.cls = 2 → t.res = s.data.depth ∧ s.data.depth = s.data.plen) ∧
      (clsKind t.cls = 3 → t.res = s.data.depth ∧ s.data.depth.toNat < s.data.plen.toNat ∧
        s.data.depth.toNat ≤ 8 * famBytes fam - 1) ∧
      (clsKind t.cls = 1 →
        (cpl s.data.ka s.data.kb (famBytes fam) < s.data.depth.toNat ∨
          s.data.plen.toNat < s.data.depth.toNat) ∧
        (cpl s.data.ka s.data.kb (famBytes fam) < s.data.depth.toNat →
          cpl s.data.ka s.data.kb (famBytes fam) < s.data.plen.toNat →
            t.res.toNat = cpl s.data.ka s.data.kb (famBytes fam) ∧
            bitAt s.data.ka t.res.toNat ≠ bitAt s.data.kb t.res.toNat) ∧
        (s.data.plen.toNat < s.data.depth.toNat →
          s.data.plen.toNat ≤ cpl s.data.ka s.data.kb (famBytes fam) → t.res = s.data.plen) ∧
        (t.res ≠ s.data.plen ↔ cpl s.data.ka s.data.kb (famBytes fam) < s.data.plen.toNat) ∧
        t.res.toNat ≤ 8 * famBytes fam - 1 ∧
        ∀ src : Src, ∃ u : State,
          exec (.bitat src fam) { t with data := { t.data with idx := t.res } } = .next u ∧ u.status = 0x01)

/-- The corner cases of `CLASS`, row by row from the table of 42_classify.md section 3, which marks them as derived. -/
def Obligations.ClassifyCornerCases : Prop :=
  ∀ (fam : Fam) (s t : State), statusFault s.status = false → exec (.classify fam) s = .next t →
    let W := 8 * famBytes fam
    let p := s.data.plen.toNat
    let d := s.data.depth.toNat
    let c := cpl s.data.ka s.data.kb (famBytes fam)
    (d = 0 → p = 0 → t.cls = 0x02 ∧ t.res = 0) ∧
    (d = 0 → 0 < p → p ≤ W → t.res = 0 ∧ t.cls = if s.data.ka[0].getLsbD 7 then 0x07 else 0x03) ∧
    (p = 0 → 0 < d → d ≤ W → t.cls = 0x01 ∧ t.res = 0) ∧
    (p = W → d = W → c = W → t.cls = 0x02 ∧ t.res.toNat = W) ∧
    (p = W → d = W → c < W → t.cls = 0x01 ∧ t.res.toNat = c) ∧
    (d = W → p < W → t.cls = 0x01) ∧
    (c = W → p < d → d ≤ W → clsKind t.cls = 1 ∧ t.res.toNat = p) ∧
    (c = W → p = d → d ≤ W → clsKind t.cls = 2 ∧ t.res.toNat = p) ∧
    (c = W → d < p → p ≤ W → clsKind t.cls = 3 ∧ t.res.toNat = d) ∧
    (p = W + 1 ∨ d = W + 1 → t.status = 0x0A ∧ t.res = s.res ∧ t.cls = s.cls) ∧
    (p ≤ W → d ≤ W → min p d ≤ c → t.res.toNat = min p d)

/-- `RES` of `CLASS` is the number of leading positions, among the first `min(PLEN, DEPTH)`, on which the two keys agree:
they agree at every position below it, and differ at it when it is below both lengths. 42_classify.md section 1. -/
def Obligations.BoundedLengthCountsAgreement : Prop :=
  ∀ (fam : Fam) (s t : State), statusFault s.status = false →
    s.data.plen.toNat ≤ 8 * famBytes fam → s.data.depth.toNat ≤ 8 * famBytes fam →
    exec (.classify fam) s = .next t →
      (∀ i, i < t.res.toNat → bitAt s.data.ka i = bitAt s.data.kb i) ∧
      t.res.toNat ≤ min s.data.plen.toNat s.data.depth.toNat ∧
      (t.res.toNat < min s.data.plen.toNat s.data.depth.toNat →
        bitAt s.data.ka t.res.toNat ≠ bitAt s.data.kb t.res.toNat)

/-- Bits at positions `min(PLEN, DEPTH)` and beyond do not count: two states with the same lengths whose keys agree, bit by
bit, below that bound get the same `RES` and the same `KIND` from `CLASS`, whatever stands beyond it. 42_classify.md
section 1. -/
def Obligations.ClassifyIgnoresBitsBeyondLengths : Prop :=
  ∀ (fam : Fam) (s u : State), statusFault s.status = false → statusFault u.status = false →
    s.data.plen = u.data.plen → s.data.depth = u.data.depth →
    s.data.plen.toNat ≤ 8 * famBytes fam → s.data.depth.toNat ≤ 8 * famBytes fam →
    (∀ i, i < min s.data.plen.toNat s.data.depth.toNat →
      bitAt s.data.ka i = bitAt u.data.ka i ∧ bitAt s.data.kb i = bitAt u.data.kb i) →
      ∃ t v : State, exec (.classify fam) s = .next t ∧ exec (.classify fam) u = .next v ∧
        t.res = v.res ∧ clsKind t.cls = clsKind v.cls

/-- After a DIVERGE with `RES` below `PLEN` the two keys differ at position `RES`: `BITAT` with `IDX` set to `RES` (not
`RES + 1`) is in bounds on either key and returns two different bits. 42_classify.md section 3; 90_conflicts.md C2. -/
def Obligations.DivergencePointSeparatesKeys : Prop :=
  ∀ (fam : Fam) (s t : State), statusFault s.status = false →
    exec (.classify fam) s = .next t → clsKind t.cls = 1 → t.status = 0x01 → t.res.toNat < s.data.plen.toNat →
      ∃ u v : State,
        exec (.bitat .ka fam) { t with data := { t.data with idx := t.res } } = .next u ∧
        exec (.bitat .kb fam) { t with data := { t.data with idx := t.res } } = .next v ∧
        u.status = 0x01 ∧ v.status = 0x01 ∧ u.res ≠ v.res

/-! ### All commands -/

/-- No command writes a data register; a command takes one answer's place and leaves the port and the free values alone;
on a fault or a refusal `RES` and `CLS` stay. 10_state.md section 2, which marks it as derived; 30_encoding.md
section 3. -/
def Obligations.CommandFrame : Prop :=
  ∀ (i : Instr) (s t : State), exec i s = .next t →
    t.data = s.data ∧ t.port = s.port ∧ t.draws = s.draws ∧
    ∃ e : Bool, t.answers = s.answers ++ [.write e] ∧ (e = true → t.res = s.res ∧ t.cls = s.cls)

/-- A command's outcome depends on nothing but the command and the data registers: two states with the same data registers
and no fault latched get the same `err` and `STATUS` and, on success, the same `RES` and `CLS`, whatever `RES`, `CLS`,
`STATUS`, the earlier answers and the later events are. 10_state.md section 1. -/
def Obligations.CommandsHaveNoHiddenInput : Prop :=
  ∀ (i : Instr) (s u : State), s.data = u.data → statusFault s.status = false → statusFault u.status = false →
    ∃ (t v : State) (e : Bool), exec i s = .next t ∧ exec i u = .next v ∧
      t.answers = s.answers ++ [.write e] ∧ v.answers = u.answers ++ [.write e] ∧
      t.status = v.status ∧ (e = false → t.res = v.res ∧ t.cls = v.cls)

/-- The same command given twice gives the same result twice. 20_memory.md section 3, which marks it as derived. -/
def Obligations.SameCommandTwiceSameResult : Prop :=
  ∀ (i : Instr) (s t : State), exec i s = .next t → statusFault t.status = false →
    ∃ u : State, exec i t = .next u ∧ u.unit = t.unit

/-- R77: a command that faults sets `STATUS` to `4*cause + 2` for one of the three causes and changes nothing else of the
unit; its write answers `err = 1`; `VALID` is then 0, so that `RES` and `CLS` can no longer be read. The same of
`raise Fault(cause)` itself. -/
def Obligations.FaultEntryWritesStatusOnly : Prop :=
  (∀ (c : Cause) (s : State), raiseFault c s =
    .next { s with status := BitVec.ofNat 8 (4 * c.code + 2), answers := s.answers ++ [.write true] }) ∧
  (Cause.code .bounds = 1 ∧ Cause.code .invalidArg = 2 ∧ Cause.code .illegalCmd = 3) ∧
  ∀ (b : Byte) (s t : State) (rest : List HostEvent), s.port = .write 0x23 b :: rest →
    statusFault s.status = false → step s = .next t → statusFault t.status = true →
      ∃ c : Cause,
        t = { s with port := rest, status := BitVec.ofNat 8 (4 * c.code + 2), answers := s.answers ++ [.write true] } ∧
        statusValid t.status = false ∧ statusCause t.status = c.code ∧
        ∀ (a : Addr) (later : List HostEvent), a = 0x24 ∨ a = 0x25 →
          ∃ (v : State) (d : Byte), step { t with port := .read a :: later } = .next v ∧
            v.unit = t.unit ∧ v.answers = t.answers ++ [.read d true]

/-- R78: a `CMD` write is decided by the first of four tests that fires: the latch (refused, nothing changes), the byte
(ILLEGAL_CMD), the operand check (BOUNDS or INVALID_ARG), else success. -/
def Obligations.CommandTestsInOrder : Prop :=
  ∀ (c : Byte) (s : State) (rest : List HostEvent), s.port = .write 0x23 c :: rest →
    ∃ t : State, step s = .next t ∧ t.port = rest ∧
      if statusFault s.status = true then
        t.unit = s.unit ∧ t.answers = s.answers ++ [.write true]
      else if IllegalByte c then
        t.status = 0x0E ∧ t.answers = s.answers ++ [.write true]
      else if OperandCheckFails c s.data then
        t.status = (if c ∈ ([0x03, 0x0B] : List Byte) then 0x0A else 0x06) ∧ t.answers = s.answers ++ [.write true]
      else t.status = 0x01 ∧ t.answers = s.answers ++ [.write false]

/-- While a fault is latched every write to `CMD` answers `err = 1` and changes nothing, not even the cause, whatever the
byte; the same of every command. 60_exceptions.md section 2. -/
def Obligations.LatchedFaultRefusesCommands : Prop :=
  (∀ (c : Byte) (s : State) (rest : List HostEvent), s.port = .write 0x23 c :: rest →
    statusFault s.status = true →
      step s = .next { s with port := rest, answers := s.answers ++ [.write true] }) ∧
  ∀ (i : Instr) (s : State), statusFault s.status = true →
    exec i s = .next { s with answers := s.answers ++ [.write true] }

/-- R80, R91: a write of any value to `SRST`, with or without a fault latched, sets `STATUS`, `RES` and `CLS` to 0, keeps the
data registers and answers `err = 0`; a step from a state with a fault latched to one with none serves such a write or a
reset, and a reset clears it too; the command that faulted, given again with the same operands, faults again. -/
def Obligations.FaultClearedOnlyByReset : Prop :=
  (∀ (d : Byte) (s : State) (rest : List HostEvent), s.port = .write 0x27 d :: rest →
    step s = .next { s with
      port := rest, status := 0x00, res := 0x00, cls := 0x00, answers := s.answers ++ [.write false] }) ∧
  (∀ s t : State, statusFault s.status = true → step s = .next t → statusFault t.status = false →
    ∃ rest, (∃ d, s.port = .write 0x27 d :: rest) ∨ s.port = .reset :: rest) ∧
  (∀ (s t : State) (rest : List HostEvent), s.port = .reset :: rest → step s = .next t →
    statusFault t.status = false) ∧
  ∀ (i : Instr) (s t u : State), statusFault s.status = false → exec i s = .next t →
    statusFault t.status = true → exec i { t with status := 0, res := 0, cls := 0 } = .next u →
      u.status = t.status

/-! ### The register space -/

/-- R30: a read answers the byte of the register at the address with `err = 0`, or an unspecified byte with `err = 1`
(`CMD`, `SRST`, unmapped, `RES` and `CLS` with `VALID = 0`), and changes none of the unit's registers. -/
def Obligations.HostReadByAddress : Prop :=
  ∀ (a : Addr) (s : State) (rest : List HostEvent), s.port = .read a :: rest →
    (∀ h : a.toNat < 0x10,
      step s = .next { s with port := rest, answers := s.answers ++ [.read s.data.ka[a.toNat] false] }) ∧
    (∀ h : 0x10 ≤ a.toNat ∧ a.toNat < 0x20,
      step s = .next { s with port := rest, answers := s.answers ++ [.read s.data.kb[a.toNat - 0x10] false] }) ∧
    (a = 0x20 → step s = .next { s with port := rest, answers := s.answers ++ [.read s.data.idx false] }) ∧
    (a = 0x21 → step s = .next { s with port := rest, answers := s.answers ++ [.read s.data.plen false] }) ∧
    (a = 0x22 → step s = .next { s with port := rest, answers := s.answers ++ [.read s.data.depth false] }) ∧
    (a = 0x26 → step s = .next { s with port := rest, answers := s.answers ++ [.read s.status false] }) ∧
    (a = 0x24 → statusValid s.status = true →
      step s = .next { s with port := rest, answers := s.answers ++ [.read s.res false] }) ∧
    (a = 0x25 → statusValid s.status = true →
      step s = .next { s with port := rest, answers := s.answers ++ [.read s.cls false] }) ∧
    (a = 0x23 ∨ a = 0x27 ∨ 0x28 ≤ a.toNat ∨ ((a = 0x24 ∨ a = 0x25) ∧ statusValid s.status = false) →
      ∃ (t : State) (d : Byte), step s = .next t ∧ t.unit = s.unit ∧ t.port = rest ∧
        t.answers = s.answers ++ [.read d true])

/-- R31: a write to a data register stores the byte there and changes nothing else, with or without a fault latched and
without touching `RES`, `CLS` or `STATUS`; a write to `CMD` executes the byte; a write to `SRST` is the soft reset, its data
ignored; a write to a read-only or unmapped address answers `err = 1` and stores nothing. -/
def Obligations.HostWriteByAddress : Prop :=
  ∀ (a : Addr) (d : Byte) (s : State) (rest : List HostEvent), s.port = .write a d :: rest →
    (∀ h : a.toNat < 0x10,
      step s = .next { s with
        port := rest, data := { s.data with ka := s.data.ka.set a.toNat d }
        answers := s.answers ++ [.write false] }) ∧
    (∀ h : 0x10 ≤ a.toNat ∧ a.toNat < 0x20,
      step s = .next { s with
        port := rest, data := { s.data with kb := s.data.kb.set (a.toNat - 0x10) d }
        answers := s.answers ++ [.write false] }) ∧
    (a = 0x20 → step s = .next { s with
        port := rest, data := { s.data with idx := d }, answers := s.answers ++ [.write false] }) ∧
    (a = 0x21 → step s = .next { s with
        port := rest, data := { s.data with plen := d }, answers := s.answers ++ [.write false] }) ∧
    (a = 0x22 → step s = .next { s with
        port := rest, data := { s.data with depth := d }, answers := s.answers ++ [.write false] }) ∧
    (a = 0x23 → step s = executeByte d { s with port := rest }) ∧
    (a = 0x27 → step s = .next { s with
        port := rest, status := 0x00, res := 0x00, cls := 0x00, answers := s.answers ++ [.write false] }) ∧
    (a = 0x24 ∨ a = 0x25 ∨ a = 0x26 ∨ 0x28 ≤ a.toNat →
      step s = .next { s with port := rest, answers := s.answers ++ [.write true] })

/-- R36: at the addresses 0x28 to 0x3F a read answers an unspecified byte with `err = 1`, a write answers `err = 1`, and
neither changes any register of the unit, the fault latch included. -/
def Obligations.UnmappedAddressesRefused : Prop :=
  ∀ (a : Addr) (s : State) (rest : List HostEvent), 0x28 ≤ a.toNat →
    (s.port = .read a :: rest →
      ∃ (t : State) (d : Byte), step s = .next t ∧ t.unit = s.unit ∧ t.answers = s.answers ++ [.read d true]) ∧
    ∀ d : Byte, s.port = .write a d :: rest →
      ∃ t : State, step s = .next t ∧ t.unit = s.unit ∧ t.answers = s.answers ++ [.write true]

/-- R81: a transaction answers `err = 1` exactly when it is one of the listed access errors or a `CMD` write whose command
faults, and every other transaction answers `err = 0`; an access error changes no register of the unit, and a command that
faults changes `STATUS`: it latches `FAULT`, which was 0. A reset is no transaction and gets no answer. -/
def Obligations.AccessErrorsExactly : Prop :=
  ∀ (s : State) (ev : HostEvent) (rest : List HostEvent), s.port = ev :: rest →
    ∃ t : State, step s = .next t ∧
      (match ev with
        | .write _ _ =>
          ∃ err, t.answers = s.answers ++ [.write err] ∧ (err = true ↔ AccessError s ev ∨ CommandFaults s ev)
        | .read _ =>
          ∃ d err, t.answers = s.answers ++ [.read d err] ∧ (err = true ↔ AccessError s ev ∨ CommandFaults s ev)
        | .reset => t.answers = s.answers) ∧
      (AccessError s ev → t.unit = s.unit) ∧
      (CommandFaults s ev → t.status ≠ s.status ∧ statusFault t.status = true)

/-- A byte written to a data register's address is what the next read of that address answers, and a read of any other data
register's address answers what it would have answered before. 20_memory.md section 1. -/
def Obligations.DataWriteThenRead : Prop :=
  ∀ (a b : Addr) (d : Byte) (s : State) (rest : List HostEvent), a.toNat ≤ 0x22 → b.toNat ≤ 0x22 →
    s.port = .write a d :: .read b :: rest →
      ∃ (t u v : State) (old : Byte),
        step { s with port := .read b :: rest } = .next v ∧ v.answers = s.answers ++ [.read old false] ∧
        step s = .next t ∧ step t = .next u ∧
        u.answers = s.answers ++ [.write false, .read (if a = b then d else old) false]

/-- A key is big-endian in bits: after a write of `d` to byte `j` of a key register, key position `8*j + b` is bit `7 - b`
of `d`, and the bit at every position of another byte, of either key, is what it was. 20_memory.md section 2. -/
def Obligations.KeyBitOrder : Prop :=
  ∀ (src : Src) (j : Nat) (d : Byte) (s t : State) (rest : List HostEvent), j < 16 →
    s.port = .write (BitVec.ofNat 6 ((if src = .ka then 0x00 else 0x10) + j)) d :: rest →
    step s = .next t →
      (∀ b, b < 8 → bitAt (t.data.key src) (8 * j + b) = d.getLsbD (7 - b)) ∧
      ∀ (src' : Src) (i : Nat), src' ≠ src ∨ i / 8 ≠ j → bitAt (t.data.key src') i = bitAt (s.data.key src') i

/-- The key loads of 30_encoding.md section 5: sixteen writes leave exactly the given key in `KA` or `KB`, four writes leave
the given bytes in its first four and keep the rest; every write answers `err = 0` and nothing else changes. -/
def Obligations.KeyLoadsFillRegister : Prop :=
  ∀ (s : State) (k : Key) (b0 b1 b2 b3 : Byte) (rest : List HostEvent),
    core.run 16 { s with port := ldka128 k ++ rest } =
      .next { s with
        port := rest, data := { s.data with ka := k }, answers := s.answers ++ List.replicate 16 (.write false) } ∧
    core.run 16 { s with port := ldkb128 k ++ rest } =
      .next { s with
        port := rest, data := { s.data with kb := k }, answers := s.answers ++ List.replicate 16 (.write false) } ∧
    core.run 4 { s with port := ldka32 b0 b1 b2 b3 ++ rest } =
      .next { s with
        port := rest
        data := { s.data with ka := (((s.data.ka.set 0 b0).set 1 b1).set 2 b2).set 3 b3 }
        answers := s.answers ++ List.replicate 4 (.write false) } ∧
    core.run 4 { s with port := ldkb32 b0 b1 b2 b3 ++ rest } =
      .next { s with
        port := rest
        data := { s.data with kb := (((s.data.kb.set 0 b0).set 1 b1).set 2 b2).set 3 b3 }
        answers := s.answers ++ List.replicate 4 (.write false) }

/-- After a command that faulted, a read of `IDX`, `PLEN` or `DEPTH` answers the operand the command was given: after BOUNDS
the byte was a `BITAT` whose operand check failed, after INVALID_ARG a `CLASS` whose operand check failed. 60_exceptions.md section 3, which marks it
as derived. -/
def Obligations.OffendingOperandsReadable : Prop :=
  ∀ (c : Byte) (s t : State) (rest : List HostEvent),
    s.port = .write 0x23 c :: .read 0x20 :: .read 0x21 :: .read 0x22 :: rest →
    statusFault s.status = false → step s = .next t → statusFault t.status = true →
      (statusCause t.status = 1 → c ∈ ([0x01, 0x09, 0x11, 0x19] : List Byte) ∧ OperandCheckFails c s.data) ∧
      (statusCause t.status = 2 → c ∈ ([0x03, 0x0B] : List Byte) ∧ OperandCheckFails c s.data) ∧
      core.run 3 t = .next { t with
        port := rest
        answers := t.answers ++
          [.read s.data.idx false, .read s.data.plen false, .read s.data.depth false] }

/-! ### Reset -/

/-- A reset event sets `STATUS`, `RES` and `CLS` to 0 and leaves some data registers, which the statement does not name; it
gives no answer. After it, and in `State.afterReset` with any data registers, a read of `STATUS` answers 0x00, reads of
`RES` and `CLS` answer `err = 1`, and a read of a data register answers `err = 0`. 70_reset_and_hazards.md section 1; that
`State.reset` has zero in the data registers is the model's choice (log entry 3) and nothing here rests on it. -/
def Obligations.ResetClearsStatusAndResults : Prop :=
  (∀ (s : State) (rest : List HostEvent), s.port = .reset :: rest →
    ∃ (data : DataRegs) (n : Nat), step s = .next { s with
      data := data, res := 0x00, cls := 0x00, status := 0x00, port := rest, draws := n }) ∧
  (∃ data : DataRegs, State.reset = State.afterReset data) ∧
  ∀ (s : State) (a : Addr) (rest : List HostEvent),
    s.unit = (s.data, 0x00, 0x00, 0x00) → s.port = .read a :: rest →
      ∃ (t : State) (d : Byte) (e : Bool), step s = .next t ∧ t.answers = s.answers ++ [.read d e] ∧
        (a = 0x26 → d = 0x00 ∧ e = false) ∧ (a = 0x24 ∨ a = 0x25 → e = true) ∧ (a.toNat ≤ 0x22 → e = false)

/-! ### Invariants -/

/-- Every step keeps the invariants of 10_state.md section 3 (reserved bits of `STATUS` and `CLS` zero, a latched fault has no
valid result and a cause, no cause without a fault, `CHILD` only with DESCEND, `RES` at most 128), from every state that
meets them. The spec marks them as derived. -/
def Obligations.StepKeepsInvariants : Prop :=
  ∀ s t : State, s.Inv → step s = .next t → t.Inv

/-- Every step keeps `STATUS` and `CLS` among the values listed for them. 10_state.md section 3. -/
def Obligations.StepKeepsListedValues : Prop :=
  ∀ s t : State, s.ListedValues → step s = .next t → t.ListedValues

/-- The invariants and the listed values hold after reset, whatever the data registers hold. 10_state.md sections 3, 5. -/
def Obligations.ResetMeetsInvariants : Prop :=
  (∀ data : DataRegs, (State.afterReset data).Inv ∧ (State.afterReset data).ListedValues) ∧
  State.reset.Inv ∧ State.reset.ListedValues

/-- Every run from a state that meets the invariants ends in one that does: it never stops, and however many host events it
serves, `STATUS` and `CLS` hold listed values and the invariants hold. 70_reset_and_hazards.md section 3. -/
def Obligations.RunsStayLegal : Prop :=
  ∀ (n : Nat) (s : State), s.Inv → s.ListedValues →
    ∃ t : State, core.run n s = .next t ∧ t.Inv ∧ t.ListedValues
end

