-- ==== Sys2Proof/Laws/Key.lean ====
section
/-!
SUPPORT. The bytes of a key register and the leading-zero counter: small facts about single operations.
-/

namespace Sys2Proof.Machine

/-- Byte `j` of a key register, for the 16 bytes it has (R13). -/
theorem keyByte_eq (k : Key) {j : Nat} (h : j < 16) : keyByte k j = k[j] := by
  simp [keyByte, h]

/-- A written byte reads back, and the other bytes stay (R31). -/
theorem keyByte_setKeyByte (k : Key) {i j : Nat} (d : Byte) (h : j < 16) :
    keyByte (setKeyByte k i d) j = if i = j then d else keyByte k j := by
  simp only [keyByte_eq _ h, setKeyByte, Vector.getElem_setIfInBounds]

/-- The counter of a non-zero byte is at most 7 (R9). -/
theorem clz8_lt (x : Byte) (h : x ≠ 0) : clz8 x < 8 := by
  revert x; decide

end Sys2Proof.Machine
end

