-- ==== Sys2Proof/Laws/State.lean ====
section
/-!
SUPPORT. What each update of the state does to each field: one lemma a field and an update, all by rfl.
-/

namespace Sys2Proof.Machine

section
variable (s : State)

@[simp] theorem State.reply_data (a : Answer) : (s.reply a).data = s.data := rfl
@[simp] theorem State.reply_res (a : Answer) : (s.reply a).res = s.res := rfl
@[simp] theorem State.reply_cls (a : Answer) : (s.reply a).cls = s.cls := rfl
@[simp] theorem State.reply_status (a : Answer) : (s.reply a).status = s.status := rfl
@[simp] theorem State.reply_port (a : Answer) : (s.reply a).port = s.port := rfl
@[simp] theorem State.reply_answers (a : Answer) : (s.reply a).answers = s.answers ++ [a] := rfl
@[simp] theorem State.reply_draws (a : Answer) : (s.reply a).draws = s.draws := rfl

@[simp] theorem State.withData_data (d : DataRegs) : (s.withData d).data = d := rfl
@[simp] theorem State.withData_res (d : DataRegs) : (s.withData d).res = s.res := rfl
@[simp] theorem State.withData_cls (d : DataRegs) : (s.withData d).cls = s.cls := rfl
@[simp] theorem State.withData_status (d : DataRegs) : (s.withData d).status = s.status := rfl
@[simp] theorem State.withData_port (d : DataRegs) : (s.withData d).port = s.port := rfl
@[simp] theorem State.withData_answers (d : DataRegs) : (s.withData d).answers = s.answers := rfl
@[simp] theorem State.withData_draws (d : DataRegs) : (s.withData d).draws = s.draws := rfl

@[simp] theorem State.withStatus_data (v : Byte) : (s.withStatus v).data = s.data := rfl
@[simp] theorem State.withStatus_res (v : Byte) : (s.withStatus v).res = s.res := rfl
@[simp] theorem State.withStatus_cls (v : Byte) : (s.withStatus v).cls = s.cls := rfl
@[simp] theorem State.withStatus_status (v : Byte) : (s.withStatus v).status = v := rfl
@[simp] theorem State.withStatus_port (v : Byte) : (s.withStatus v).port = s.port := rfl
@[simp] theorem State.withStatus_answers (v : Byte) : (s.withStatus v).answers = s.answers := rfl
@[simp] theorem State.withStatus_draws (v : Byte) : (s.withStatus v).draws = s.draws := rfl

@[simp] theorem State.withResult_data (res cls status : Byte) : (s.withResult res cls status).data = s.data := rfl
@[simp] theorem State.withResult_res (res cls status : Byte) : (s.withResult res cls status).res = res := rfl
@[simp] theorem State.withResult_cls (res cls status : Byte) : (s.withResult res cls status).cls = cls := rfl
@[simp] theorem State.withResult_status (res cls status : Byte) : (s.withResult res cls status).status = status := rfl
@[simp] theorem State.withResult_port (res cls status : Byte) : (s.withResult res cls status).port = s.port := rfl
@[simp] theorem State.withResult_answers (res cls status : Byte) : (s.withResult res cls status).answers = s.answers := rfl
@[simp] theorem State.withResult_draws (res cls status : Byte) : (s.withResult res cls status).draws = s.draws := rfl

@[simp] theorem State.drawn_data : (s.drawn).data = s.data := rfl
@[simp] theorem State.drawn_res : (s.drawn).res = s.res := rfl
@[simp] theorem State.drawn_cls : (s.drawn).cls = s.cls := rfl
@[simp] theorem State.drawn_status : (s.drawn).status = s.status := rfl
@[simp] theorem State.drawn_port : (s.drawn).port = s.port := rfl
@[simp] theorem State.drawn_answers : (s.drawn).answers = s.answers := rfl
@[simp] theorem State.drawn_draws : (s.drawn).draws = s.draws + 1 := rfl

@[simp] theorem State.withPort_data (p : List HostEvent) : (s.withPort p).data = s.data := rfl
@[simp] theorem State.withPort_res (p : List HostEvent) : (s.withPort p).res = s.res := rfl
@[simp] theorem State.withPort_cls (p : List HostEvent) : (s.withPort p).cls = s.cls := rfl
@[simp] theorem State.withPort_status (p : List HostEvent) : (s.withPort p).status = s.status := rfl
@[simp] theorem State.withPort_port (p : List HostEvent) : (s.withPort p).port = p := rfl
@[simp] theorem State.withPort_answers (p : List HostEvent) : (s.withPort p).answers = s.answers := rfl
@[simp] theorem State.withPort_draws (p : List HostEvent) : (s.withPort p).draws = s.draws := rfl

end

/-- The state `State.afterReset` gives, field by field (R24, R25). -/
@[simp] theorem State.afterReset_data (d : DataRegs) : (State.afterReset d).data = d := rfl
@[simp] theorem State.afterReset_res (d : DataRegs) : (State.afterReset d).res = 0 := rfl
@[simp] theorem State.afterReset_cls (d : DataRegs) : (State.afterReset d).cls = 0 := rfl
@[simp] theorem State.afterReset_status (d : DataRegs) : (State.afterReset d).status = 0 := rfl
@[simp] theorem State.afterReset_port (d : DataRegs) : (State.afterReset d).port = [] := rfl
@[simp] theorem State.afterReset_answers (d : DataRegs) : (State.afterReset d).answers = [] := rfl

end Sys2Proof.Machine
end

