-- ==== Sys2Proof/Laws/Ops.lean ====
section
/-!
SUPPORT. What each shared operation can do, said once: its only answer, and the fields of `STATUS` and `CLS` it leaves.
-/

namespace Sys2Proof.Machine

section
variable {s t : State}

/-- A performed write answers `err = 0` and changes nothing else (R29). -/
theorem acceptWrite_next : acceptWrite s = .next t ↔ t = s.reply (.write false) := by
  simp [acceptWrite, eq_comm]

/-- A refused write answers `err = 1` and changes nothing else (R81). -/
theorem refuseWrite_next : refuseWrite s = .next t ↔ t = s.reply (.write true) := by
  simp [refuseWrite, eq_comm]

/-- A performed read answers its byte and changes nothing else (R30). -/
theorem acceptRead_next {d : Byte} : acceptRead d s = .next t ↔ t = s.reply (.read d false) := by
  simp [acceptRead, eq_comm]

/-- A refused read answers a free value and changes none of the unit's registers (R30). -/
theorem refuseRead_next :
    refuseRead s = .next t ↔ t = s.drawn.reply (.read (Config.refusedReadByte s.draws) true) := by
  simp [refuseRead, eq_comm]

/-- A successful command writes `RES`, `CLS` and `STATUS` and answers `err = 0` (R54, R60, R68). -/
theorem succeed_next {res cls : Byte} :
    succeed res cls s = .next t ↔ t = (s.withResult res cls statusDone).reply (.write false) := by
  simp [succeed, acceptWrite, eq_comm]

/-- Taking a fault writes `STATUS` alone and answers `err = 1` (R77). -/
theorem raiseFault_next {c : Cause} :
    raiseFault c s = .next t ↔ t = (s.withStatus (statusFaulted c)).reply (.write true) := by
  simp [raiseFault, eq_comm]

/-- A soft reset clears `RES`, `CLS` and `STATUS` and answers `err = 0` (R91). -/
theorem softReset_next : softReset s = .next t ↔ t = (s.withResult 0 0 0).reply (.write false) := by
  simp [softReset, acceptWrite, eq_comm]

/-- A hardware reset draws the data registers, clears `RES`, `CLS` and `STATUS`, and answers nothing (R89). -/
theorem hardReset_next :
    hardReset s = .next t ↔ t = ((s.withData (resetData s.draws)).withResult 0 0 0).drawn := by
  simp [hardReset, eq_comm]

/-- With a fault latched a command write is refused (R79). -/
theorem unlessLatched_latched {run : State → Result} (h : s.latched = true) :
    unlessLatched s run = refuseWrite s := by
  simp [unlessLatched, h]

/-- With no fault latched the command goes on (R78). -/
theorem unlessLatched_clear {run : State → Result} (h : s.latched = false) :
    unlessLatched s run = run s := by
  simp [unlessLatched, h]

/-- The `STATUS` of success has `VALID` alone set (R18). -/
theorem statusDone_fields :
    statusValid statusDone = true ∧ statusFault statusDone = false ∧ statusCause statusDone = 0 ∧
      statusUpper statusDone = 0 := by
  decide

/-- The `STATUS` of a fault has `FAULT` set, `VALID` clear and its cause code (R18, R77). -/
theorem statusFaulted_fields (c : Cause) :
    statusValid (statusFaulted c) = false ∧ statusFault (statusFaulted c) = true ∧
      statusCause (statusFaulted c) = c.code ∧ statusUpper (statusFaulted c) = 0 := by
  cases c <;> decide

/-- The fields of the `CLS` that `CLASS` writes (R19). -/
theorem clsByte_fields (k : Kind) (b : Bool) :
    clsKind (clsByte k b) = k.code ∧ clsChild (clsByte k b) = b ∧ clsUpper (clsByte k b) = 0 := by
  cases k <;> cases b <;> decide

end

end Sys2Proof.Machine
end

