-- ==== Sys2Proof/Laws/PerInstr.lean ====
section
/-!
SUPPORT. What holds of every instruction as syntax, one lemma per constructor.
-/

namespace Sys2Proof.Laws

/-- The byte of an instruction keeps `RSV` clear and names an assigned `OP`, and its fields read back (R43, R44, R47). -/
def EncodedByte.Statement (i : Instr) : Prop :=
  i.wellFormed = true ∧ (encode i).toNat < 32 ∧ (encode i).toNat % 8 ∈ [1, 2, 3] ∧ fieldsOf (encode i) = i.fields

theorem EncodedByte.bitat (src : Src) (fam : Fam) : EncodedByte.Statement (.bitat src fam) := by
  cases src <;> cases fam <;> exact ⟨by decide, by decide, by decide, by decide⟩

theorem EncodedByte.cpl (fam : Fam) : EncodedByte.Statement (.cpl fam) := by
  cases fam <;> exact ⟨by decide, by decide, by decide, by decide⟩

theorem EncodedByte.classify (fam : Fam) : EncodedByte.Statement (.classify fam) := by
  cases fam <;> exact ⟨by decide, by decide, by decide, by decide⟩

end Sys2Proof.Laws
end

