-- ==== Sys2Proof/Laws/Step.lean ====
section
/-!
SUPPORT. What a command, a host event and a step can do, said once, for proofs that go over all of them.
-/

namespace Sys2Proof.Machine

/-- What a command comes to on given data registers when no fault is latched: the cause it faults with, or the `RES` and
`CLS` it writes (R54, R60, R68). -/
def commandEffect (i : Instr) (d : DataRegs) : Except Cause (Byte × Byte) :=
  match i with
  | .bitat src fam =>
    if d.idx.toNat ≥ famBits fam then .error .bounds else .ok (zextBit (bitAt (d.key src) d.idx.toNat), 0)
  | .cpl fam => .ok (BitVec.ofNat 8 (cpl d.ka d.kb (famBytes fam)), 0)
  | .classify fam =>
    if d.plen.toNat > famBits fam ∨ d.depth.toNat > famBits fam then .error .invalidArg
    else
      let kind := outcomeKind (boundedLength d fam) d.plen.toNat d.depth.toNat
      .ok (BitVec.ofNat 8 (boundedLength d fam), clsByte kind (childBit kind d.ka d.depth.toNat))

section
variable {s t : State}

/-- A command with no fault latched is its effect on the data registers, written into the state (R12). -/
theorem exec_clear (i : Instr) (h : s.latched = false) :
    exec i s = match commandEffect i s.data with
      | .error c => raiseFault c s
      | .ok rc   => succeed rc.1 rc.2 s := by
  cases i <;> simp only [exec, execBitat, execCpl, execClassify, unlessLatched_clear h, commandEffect]
  all_goals split <;> rfl

/-- With a fault latched every command is refused (R79). -/
theorem exec_latched (i : Instr) (h : s.latched = true) : exec i s = refuseWrite s := by
  cases i <;> simp only [exec, execBitat, execCpl, execClassify] <;> exact unlessLatched_latched h

/-- The three ends of a command (R78): refused, faulted, or done with some result. -/
theorem exec_cases {i : Instr} (h : exec i s = .next t) :
    (s.latched = true ∧ t = s.reply (.write true)) ∨
    (s.latched = false ∧ ∃ c, t = (s.withStatus (statusFaulted c)).reply (.write true)) ∨
    (s.latched = false ∧ ∃ res cls, t = (s.withResult res cls statusDone).reply (.write false)) := by
  cases hl : s.latched with
  | true => exact .inl ⟨rfl, refuseWrite_next.mp (exec_latched i hl ▸ h)⟩
  | false =>
    rw [exec_clear i hl] at h
    cases he : commandEffect i s.data with
    | error c => rw [he] at h; exact .inr (.inl ⟨rfl, c, raiseFault_next.mp h⟩)
    | ok rc => rw [he] at h; exact .inr (.inr ⟨rfl, rc.1, rc.2, succeed_next.mp h⟩)

/-- A written byte that is no command is refused or raises ILLEGAL_CMD (R76, R79). -/
theorem execIllegal_cases (h : execIllegal s = .next t) :
    (s.latched = true ∧ t = s.reply (.write true)) ∨
    (s.latched = false ∧ t = (s.withStatus (statusFaulted .illegalCmd)).reply (.write true)) := by
  cases hl : s.latched with
  | true => rw [execIllegal, unlessLatched_latched hl, refuseWrite_next] at h; exact .inl ⟨rfl, h⟩
  | false => rw [execIllegal, unlessLatched_clear hl, raiseFault_next] at h; exact .inr ⟨rfl, h⟩

/-- A command write tests the latch before anything else, as `Execute` of R48 is written. -/
theorem executeByte_eq (c : Byte) (s : State) :
    executeByte c s =
      if s.latched then refuseWrite s
      else match decode c with
        | .ok i => exec i s
        | .error _ => raiseFault .illegalCmd s := by
  unfold executeByte
  cases decode c with
  | error e =>
    cases hl : s.latched with
    | true => exact unlessLatched_latched hl
    | false => exact unlessLatched_clear hl
  | ok i =>
    cases hl : s.latched with
    | true => exact exec_latched i hl
    | false => rfl

/-- A step with nothing pending. -/
theorem step_idle (h : s.port = []) : step s = .next s := by
  simp [step, h]

/-- A step with an event pending serves that event. -/
theorem step_serves {ev : HostEvent} {rest : List HostEvent} (h : s.port = ev :: rest) :
    step s = serve ev (s.withPort rest) := by
  simp [step, h]

end

end Sys2Proof.Machine
end

