-- ==== Sys2Proof/Tests/Slice0.lean ====
section
/-!
SUPPORT. Tests on fixed values, each with the place of spec/ its expected value comes from, and for each statement of
Certificates/Slice0/Obligations.lean that has premises a state and operands that meet them.
-/

open Sys2Proof Sys2Proof.Machine

namespace Sys2Proof.Tests

/-- A key register with the given first bytes and 0 beyond. -/
def keyFrom (bs : List Byte) : Key := bs.zipIdx.foldl (fun k p => setKeyByte k p.2 p.1) (Vector.replicate 16 0)

/-- The state after a reset and the writes of the operands (95_test_vectors.md section 2), with events pending. -/
def unitWith (ka kb : List Byte) (idx plen depth : Byte) (port : List HostEvent) : State :=
  { State.afterReset { ka := keyFrom ka, kb := keyFrom kb, idx := idx, plen := plen, depth := depth } with port := port }

/-- The same with a given `STATUS`. -/
def unitIn (status : Byte) (port : List HostEvent) : State :=
  { unitWith [] [] 0 0 0 port with status := status, res := 0x0E, cls := 0x01 }

/-- `RES`, `CLS`, `STATUS` and the answers after a step. -/
def seen : Result → Option (Byte × Byte × Byte × List Answer)
  | .next s    => some (s.res, s.cls, s.status, s.answers)
  | .fault _   => none
  | .refused _ => none

/-! ### Well-formedness: one ill-formed term per check -/

/-- R47: a bit of `RSV` set (byte 0x21). -/
theorem test_wf_rsv : (CommandFields.mk 1 0 0 1).rsvClear = false ∧ (CommandFields.mk 1 0 0 1).wellFormed = false := by
  decide

/-- R44: `OP = 100` (byte 0x04). -/
theorem test_wf_op : (CommandFields.mk 0 0 0 4).opAssigned = false ∧ (CommandFields.mk 0 0 0 4).wellFormed = false := by
  decide

/-- R46: `SRC = 1` with `CPL` (byte 0x12). -/
theorem test_wf_src : (CommandFields.mk 0 1 0 2).srcAllowed = false ∧ (CommandFields.mk 0 1 0 2).wellFormed = false := by
  decide

/-! ### Decoding: words written out bit by bit from the format `000sfooo` (R43, R48) -/

theorem test_decode_bitat32_a : decode 0b00000001 = .ok (.bitat .ka .w32) := by decide
theorem test_decode_bitat128_b : decode 0b00011001 = .ok (.bitat .kb .w128) := by decide
theorem test_decode_cpl32 : decode 0b00000010 = .ok (.cpl .w32) := by decide
theorem test_decode_cpl128 : decode 0b00001010 = .ok (.cpl .w128) := by decide
theorem test_decode_class32 : decode 0b00000011 = .ok (.classify .w32) := by decide
theorem test_decode_class128 : decode 0b00001011 = .ok (.classify .w128) := by decide

/-- R49's examples of illegal bytes, by their reason. -/
theorem test_decode_illegal :
    decode 0b00000000 = .error .reservedOp ∧ decode 0b00000111 = .error .reservedOp ∧
    decode 0b00010010 = .error .sourceSet ∧ decode 0b00011011 = .error .sourceSet ∧
    decode 0b00100001 = .error .reservedBits ∧ decode 0b10000001 = .error .reservedBits := by
  decide

/-- spec/opcode_table.json: the match words of the three rows. -/
theorem test_table_words :
    decodeTableWord 8 0x01 = some (.bitat .ka .w32) ∧ decodeTableWord 8 0x02 = some (.cpl .w32) ∧
    decodeTableWord 8 0x03 = some (.classify .w32) := by
  decide

/-! ### Functions -/

/-- The `clz8` table of 95_test_vectors.md section 2.1. -/
theorem test_clz8 :
    ([0xFF, 0x80, 0x7F, 0x40, 0x3F, 0x20, 0x1F, 0x18, 0x10, 0x0F, 0x08, 0x07, 0x04, 0x03, 0x02, 0x01] : List Byte).map clz8
      = [0, 0, 1, 1, 2, 2, 3, 3, 3, 4, 4, 5, 5, 6, 6, 7] := by
  decide

/-- `bitAt` of 1.1.1.129 at positions 0, 7, 15, 23, 24, 25, 31 (95_test_vectors.md section 2.2). -/
theorem test_bitAt :
    [0, 7, 15, 23, 24, 25, 31].map (bitAt (keyFrom [0x01, 0x01, 0x01, 0x81]))
      = [false, true, true, true, true, false, true] := by
  decide

/-! ### The commands: the vectors of 95_test_vectors.md -/

/-- V-BIT-16: the last position of a 16-byte key. -/
theorem test_bitat_last :
    seen (step (unitWith [0x20, 0x01, 0x0D, 0xB8, 0, 0, 0, 0, 0, 0, 0, 0, 0, 0, 0, 0x01] [] 0x7F 0 0 [.write 0x23 0x09]))
      = some (0x01, 0x00, 0x01, [.write false]) := by
  decide

/-- V-BIT-08: `IDX = W` on `KB` raises BOUNDS. -/
theorem test_bitat_bounds :
    seen (step (unitWith [0x01, 0x01, 0x01, 0x81] [0, 0, 0, 0x01] 0x20 0 0 [.write 0x23 0x11]))
      = some (0x00, 0x00, 0x06, [.write true]) := by
  decide

/-- V-CPL-02: 1.24.0.0 and 1.1.0.0 share 11 bits. -/
theorem test_cpl_eleven :
    seen (step (unitWith [0x01, 0x18] [0x01, 0x01] 0 0 0 [.write 0x23 0x02]))
      = some (0x0B, 0x00, 0x01, [.write false]) := by
  decide

/-- V-CPL-20: equal 16-byte keys give 128. -/
theorem test_cpl_full :
    seen (step (unitWith [0x20, 0x01, 0x0D, 0xB8] [0x20, 0x01, 0x0D, 0xB8] 0 0 0 [.write 0x23 0x0A]))
      = some (0x80, 0x00, 0x01, [.write false]) := by
  decide

/-- V-CLS-05: DESCEND to child 1. -/
theorem test_class_descend :
    seen (step (unitWith [0x01, 0x01, 0x80, 0x00] [0x01, 0x01, 0x00, 0x00] 0 0x18 0x10 [.write 0x23 0x03]))
      = some (0x10, 0x07, 0x01, [.write false]) := by
  decide

/-- V-CLS-16: `DEPTH = W + 1` raises INVALID_ARG. -/
theorem test_class_invalid :
    seen (step (unitWith [0x01, 0x01, 0x01, 0x81] [0x01, 0x01, 0x01, 0x81] 0 0x20 0x21 [.write 0x23 0x03]))
      = some (0x00, 0x00, 0x0A, [.write true]) := by
  decide

/-! ### The port: 95_test_vectors.md section 2.6 and program P5 -/

/-- P5 step 32: `CPL` with `SRC = 1` is an illegal command. -/
theorem test_illegal_command :
    seen (step (unitIn 0x01 [.write 0x23 0x12])) = some (0x0E, 0x01, 0x0E, [.write true]) := by
  decide

/-- V-FLT-1: a command while a fault is latched is refused. -/
theorem test_refused_while_latched :
    seen (step (unitIn 0x06 [.write 0x23 0x03])) = some (0x0E, 0x01, 0x06, [.write true]) := by
  decide

/-- P5 step 13: `SRST` with any data value clears the latch. -/
theorem test_soft_reset :
    seen (step (unitIn 0x0E [.write 0x27 0xA5])) = some (0x00, 0x00, 0x00, [.write false]) := by
  decide

/-- P5 step 6: a write to `STATUS` is refused. -/
theorem test_status_read_only :
    seen (step (unitIn 0x01 [.write 0x26 0xFF])) = some (0x0E, 0x01, 0x01, [.write true]) := by
  decide

/-- Section 2.6: `R 24` with a valid result. -/
theorem test_read_res :
    seen (step (unitIn 0x01 [.read 0x24])) = some (0x0E, 0x01, 0x01, [.read 0x0E false]) := by
  decide

/-- P2 step 8: `W 1F 01` stores byte 15 of `KB`, the last key address. -/
theorem test_write_last_key_byte :
    (match step (unitIn 0x06 [.write 0x1F 0x01]) with
      | .next s    => some (keyByte s.data.kb 15, keyByte s.data.kb 14, s.status)
      | .fault _   => none
      | .refused _ => none) = some (0x01, 0x00, 0x06) := by
  decide

/-! ### Premises met: each statement's premises hold of something, at the ends of their ranges -/

theorem witness_EncodeDecodeAgree :
    (Instr.classify .w128).wellFormed = true ∧ decode 0x19 = .ok (.bitat .kb .w128) := by
  decide

theorem witness_IllegalByteRaisesIllegalCmd :
    (unitIn 0x01 [.write 0x23 0xFF]).port = .write 0x23 0xFF :: [] ∧
    (IllegalByte 0x00 ∧ IllegalByte 0x1F ∧ IllegalByte 0x21 ∧ IllegalByte 0xFF ∧ IllegalByte 0x12 ∧ IllegalByte 0x1B) ∧
    statusFault (unitIn 0x01 [.write 0x23 0xFF]).status = false := by
  decide

theorem witness_StepRunsDecodedCommand :
    (unitIn 0x00 [.write 0x23 0x0B, .reset]).port = .write 0x23 0x0B :: [.reset] ∧
    decode 0x0B = .ok (.classify .w128) := by
  decide

theorem witness_EventsServedOneAtATime :
    State.reset.port = [] ∧ (unitIn 0x00 [.reset, .read 0x24]).port = .reset :: [.read 0x24] ∧
    (unitIn 0x00 [.read 0x24]).port = .read 0x24 :: [] ∧ HostEvent.read 0x24 ≠ .reset := by
  decide

theorem witness_BitAtIsBitOfByte :
    0 < 8 * famBytes .w32 ∧ 0 / 8 < 16 ∧ 31 < 8 * famBytes .w32 ∧ 31 / 8 < 16 ∧ 127 < 8 * famBytes .w128 ∧ 127 / 8 < 16 := by
  decide

theorem witness_BitatReturnsTheBit :
    (unitWith [] [] 0x1F 0 0 []).data.idx.toNat / 8 < 16 ∧ (unitWith [] [] 0x7F 0 0 []).data.idx.toNat / 8 < 16 ∧
    statusFault (unitWith [] [] 0x1F 0 0 []).status = false ∧ statusFault (unitWith [] [] 0x7F 0 0 []).status = false ∧
    (unitWith [] [] 0x1F 0 0 []).data.idx.toNat < (if Fam.w32 = .w32 then 32 else 128) ∧
    (unitWith [] [] 0x7F 0 0 []).data.idx.toNat < (if Fam.w128 = .w32 then 32 else 128) := by
  decide

theorem witness_BoundsFaultExactly :
    statusFault (unitWith [] [] 0x20 0 0 []).status = false ∧
    (∃ t, exec (.cpl .w32) (unitWith [] [] 0x20 0 0 []) = .next t) ∧
    ∃ t, exec (.classify .w128) (unitWith [] [] 0x20 0 0 []) = .next t :=
  ⟨by decide, ⟨_, rfl⟩, ⟨_, rfl⟩⟩

theorem witness_BitatIgnoresPrefixLength :
    statusFault (unitWith [0x80] [] 0 0 0 []).status = false ∧
    ∃ t, exec (.bitat .ka .w32) (unitWith [0x80] [] 0 0 0 []) = .next t ∧ t.status = 0x01 :=
  ⟨by decide, _, rfl, by decide⟩

theorem witness_Bitat32ReadsFourBytes :
    statusFault (unitWith [1, 2, 3, 4, 5] [9] 0x1F 0 0 []).status = false ∧
    statusFault (unitWith [1, 2, 3, 4, 6] [8] 0x1F 1 1 []).status = false ∧
    (unitWith [1, 2, 3, 4, 5] [9] 0x1F 0 0 []).data.idx = (unitWith [1, 2, 3, 4, 6] [8] 0x1F 1 1 []).data.idx ∧
    ∀ j (_ : j < 4), ((unitWith [1, 2, 3, 4, 5] [9] 0x1F 0 0 []).data.key .ka)[j] =
      ((unitWith [1, 2, 3, 4, 6] [8] 0x1F 1 1 []).data.key .ka)[j] := by
  decide

theorem witness_BitsRebuildTheKey : 0 < 16 ∧ 15 < 16 := by decide

theorem witness_Clz8CountsLeadingZeros : (0x01 : Byte) ≠ 0 ∧ (0xFF : Byte) ≠ 0 := by decide

theorem witness_CplStopsAtFirstDifference :
    (∀ j (_ : j < 16), j < famBytes .w128 → (keyFrom [1])[j] = (keyFrom [1])[j]) ∧
    (0 < famBytes .w32 ∧ (keyFrom [0x80])[0] ^^^ (keyFrom [0])[0] ≠ 0) ∧
    3 < famBytes .w32 ∧ (∀ j (_ : j < 3), (keyFrom [1, 1, 1, 0x81])[j] ^^^ (keyFrom [1, 1, 1, 0x80])[j] = 0) ∧
    (keyFrom [1, 1, 1, 0x81])[3] ^^^ (keyFrom [1, 1, 1, 0x80])[3] ≠ 0 ∧
    ∀ j (_ : j < 16), j < famBytes .w32 →
      (keyFrom [1, 1, 1, 1, 9])[j] = (keyFrom [1, 1, 1, 1])[j] ∧ (keyFrom [2, 0, 0, 0, 7])[j] = (keyFrom [2])[j] := by
  decide

theorem witness_CplReturnsCommonLength : statusFault State.reset.status = false := by decide

theorem witness_CplIsSymmetric : statusFault (unitWith [1] [2] 0 0 0 []).status = false := by decide

theorem witness_CplRangeAndFullWidth :
    3 < famBytes .w32 ∧ (keyFrom [0, 0, 0, 1])[3] ≠ (keyFrom [])[3] ∧
    15 < famBytes .w128 ∧ (keyFrom [0, 0, 0, 0, 0, 0, 0, 0, 0, 0, 0, 0, 0, 0, 0, 1])[15] ≠ (keyFrom [])[15] := by
  decide

theorem witness_CplCharacterisedByBits : 0 ≤ 8 * famBytes .w32 ∧ 32 ≤ 8 * famBytes .w32 ∧ 128 ≤ 8 * famBytes .w128 := by
  decide

theorem witness_Cpl32ReadsFourBytes :
    statusFault (unitWith [1, 2, 3, 4, 5] [1, 2, 3, 4] 0 0 0 []).status = false ∧
    statusFault (unitWith [1, 2, 3, 4] [1, 2, 3, 4, 7] 0 0 0 []).status = false ∧
    ∀ j (_ : j < 4),
      (unitWith [1, 2, 3, 4, 5] [1, 2, 3, 4] 0 0 0 []).data.ka[j] =
        (unitWith [1, 2, 3, 4] [1, 2, 3, 4, 7] 0 0 0 []).data.ka[j] ∧
      (unitWith [1, 2, 3, 4, 5] [1, 2, 3, 4] 0 0 0 []).data.kb[j] =
        (unitWith [1, 2, 3, 4] [1, 2, 3, 4, 7] 0 0 0 []).data.kb[j] := by
  decide

theorem witness_CplFamiliesAgree :
    cpl (keyFrom [0, 0, 0, 1]) (keyFrom []) 4 < 32 ∧ cpl (keyFrom [0, 0, 0, 0, 1]) (keyFrom []) 4 = 32 := by
  decide

theorem witness_ClassifyReturnsOutcome :
    statusFault (unitWith [] [] 0 0x20 0x20 []).status = false ∧
    (unitWith [] [] 0 0x20 0x20 []).data.plen.toNat ≤ (if Fam.w32 = .w32 then 32 else 128) ∧
    (unitWith [] [] 0 0x20 0x20 []).data.depth.toNat ≤ (if Fam.w32 = .w32 then 32 else 128) ∧
    (unitWith [] [] 0 0x80 0x7F []).data.plen.toNat ≤ (if Fam.w128 = .w32 then 32 else 128) ∧
    (unitWith [] [] 0 0x80 0x7F []).data.depth.toNat ≤ (if Fam.w128 = .w32 then 32 else 128) ∧
    32 = min (min (cpl (unitWith [] [] 0 0x20 0x20 []).data.ka (unitWith [] [] 0 0x20 0x20 []).data.kb (famBytes .w32))
      (unitWith [] [] 0 0x20 0x20 []).data.plen.toNat) (unitWith [] [] 0 0x20 0x20 []).data.depth.toNat := by
  decide

theorem witness_InvalidArgFaultExactly : statusFault (unitWith [] [] 0 0x21 0x20 []).status = false := by decide

/-- A state in which `CLASS` completes with the given lengths and the given `KIND`. -/
def ClassGives (ka kb : List Byte) (plen depth : Byte) (fam : Fam) (kind : Nat) : Prop :=
  statusFault (unitWith ka kb 0 plen depth []).status = false ∧
  plen.toNat ≤ 8 * famBytes fam ∧ depth.toNat ≤ 8 * famBytes fam ∧
  ∃ t, exec (.classify fam) (unitWith ka kb 0 plen depth []) = .next t ∧ clsKind t.cls = kind

/-- One state per outcome: V-CLS-13 (DIVERGE by a bit), V-CLS-19 (DIVERGE by a short prefix), V-CLS-12 (EXACT), V-CLS-14
(DESCEND). In the first the keys differ below both lengths. -/
theorem witness_ClassifyConsequences :
    (ClassGives [1, 1, 1, 0x82] [1, 1, 1, 0x81] 0x20 0x20 .w32 1 ∧
      cpl (keyFrom [1, 1, 1, 0x82]) (keyFrom [1, 1, 1, 0x81]) (famBytes .w32) < 0x20) ∧
    ClassGives [1] [1] 0x1F 0x20 .w32 1 ∧
    ClassGives [1] [1] 0x20 0x20 .w32 2 ∧ ClassGives [1] [1] 0x20 0x1F .w32 3 :=
  ⟨⟨⟨by decide, by decide, by decide, _, rfl, by decide⟩, by decide⟩,
   ⟨by decide, by decide, by decide, _, rfl, by decide⟩,
   ⟨by decide, by decide, by decide, _, rfl, by decide⟩, ⟨by decide, by decide, by decide, _, rfl, by decide⟩⟩

/-- The rows of R71's table at the ends of their ranges (V-CLS-08, -09, -11, -12, -13, -19, -07, -02, -04, -15, -03). -/
theorem witness_ClassifyCornerCases :
    ClassGives [] [] 0 0 .w32 2 ∧ ClassGives [0x81] [] 0x20 0 .w32 3 ∧ ClassGives [1] [1] 0 0x20 .w32 1 ∧
    (ClassGives [1] [1] 0x80 0x80 .w128 2 ∧ cpl (keyFrom [1]) (keyFrom [1]) 16 = 128) ∧
    (ClassGives [1, 1, 1, 0x82] [1, 1, 1, 0x81] 0x20 0x20 .w32 1 ∧
      cpl (keyFrom [1, 1, 1, 0x82]) (keyFrom [1, 1, 1, 0x81]) 4 < 32) ∧
    (ClassGives [1] [1] 0x1F 0x20 .w32 1 ∧ cpl (keyFrom [1]) (keyFrom [1]) 4 = 32) ∧
    ClassGives [1] [1] 0x10 0x10 .w32 2 ∧ ClassGives [1] [1] 0x20 0x1F .w32 3 ∧
    (∃ t, exec (.classify .w32) (unitWith [1] [1] 0 0x21 0x20 []) = .next t) ∧
    (∃ t, exec (.classify .w128) (unitWith [1] [1] 0 0x80 0x81 []) = .next t) ∧
    min 0x10 0x10 ≤ cpl (keyFrom [1, 1, 0x4D, 9]) (keyFrom [1, 1, 0xC8, 3]) 4 :=
  ⟨⟨by decide, by decide, by decide, _, rfl, by decide⟩, ⟨by decide, by decide, by decide, _, rfl, by decide⟩,
   ⟨by decide, by decide, by decide, _, rfl, by decide⟩,
   ⟨⟨by decide, by decide, by decide, _, rfl, by decide⟩, by decide⟩,
   ⟨⟨by decide, by decide, by decide, _, rfl, by decide⟩, by decide⟩,
   ⟨⟨by decide, by decide, by decide, _, rfl, by decide⟩, by decide⟩,
   ⟨by decide, by decide, by decide, _, rfl, by decide⟩, ⟨by decide, by decide, by decide, _, rfl, by decide⟩,
   ⟨_, rfl⟩, ⟨_, rfl⟩, by decide⟩

theorem witness_BoundedLengthCountsAgreement :
    ClassGives [1, 1, 1, 0x82] [1, 1, 1, 0x81] 0x20 0x20 .w32 1 ∧ 30 < min 0x20 0x20 :=
  ⟨⟨by decide, by decide, by decide, _, rfl, by decide⟩, by decide⟩

theorem witness_ClassifyIgnoresBitsBeyondLengths :
    statusFault (unitWith [1, 1, 9] [1, 1, 8] 0 16 16 []).status = false ∧
    statusFault (unitWith [1, 1] [1, 1] 0 16 16 []).status = false ∧
    (16 : Byte).toNat ≤ 8 * famBytes .w32 ∧
    ∀ i < min (16 : Byte).toNat (16 : Byte).toNat,
      bitAt (unitWith [1, 1, 9] [1, 1, 8] 0 16 16 []).data.ka i = bitAt (unitWith [1, 1] [1, 1] 0 16 16 []).data.ka i ∧
      bitAt (unitWith [1, 1, 9] [1, 1, 8] 0 16 16 []).data.kb i = bitAt (unitWith [1, 1] [1, 1] 0 16 16 []).data.kb i := by
  decide

theorem witness_DivergencePointSeparatesKeys :
    statusFault (unitWith [1, 2] [1, 1] 0 16 16 []).status = false ∧
    ∃ t, exec (.classify .w32) (unitWith [1, 2] [1, 1] 0 16 16 []) = .next t ∧ clsKind t.cls = 1 ∧ t.status = 0x01 ∧
      t.res.toNat < (unitWith [1, 2] [1, 1] 0 16 16 []).data.plen.toNat :=
  ⟨by decide, _, rfl, by decide, by decide, by decide⟩

theorem witness_CommandFrame :
    (∃ t, exec (.bitat .kb .w128) (unitWith [] [] 0xFF 0 0 []) = .next t ∧ t.answers = [] ++ [.write true]) ∧
    ∃ t, exec (.cpl .w32) (unitWith [] [] 0xFF 0 0 []) = .next t ∧ t.answers = [] ++ [.write false] :=
  ⟨⟨_, rfl, by decide⟩, ⟨_, rfl, by decide⟩⟩

theorem witness_CommandsHaveNoHiddenInput :
    (unitIn 0x00 []).data = (unitIn 0x01 [.reset]).data ∧ statusFault (unitIn 0x00 []).status = false ∧
    statusFault (unitIn 0x01 [.reset]).status = false := by
  decide

theorem witness_SameCommandTwiceSameResult :
    ∃ t, exec (.cpl .w32) (unitWith [1] [2] 0 0 0 []) = .next t ∧ statusFault t.status = false :=
  ⟨_, rfl, by decide⟩

/-- Each of the three causes is reached from a state the statement speaks of. -/
theorem witness_FaultEntryWritesStatusOnly :
    (∃ t, step (unitWith [] [] 0x20 0 0 [.write 0x23 0x01]) = .next t ∧ statusCause t.status = 1 ∧
      statusFault t.status = true) ∧
    (∃ t, step (unitWith [] [] 0 0x21 0 [.write 0x23 0x03]) = .next t ∧ statusCause t.status = 2 ∧
      statusFault t.status = true) ∧
    ∃ t, step (unitWith [] [] 0 0 0 [.write 0x23 0x00]) = .next t ∧ statusCause t.status = 3 ∧
      statusFault t.status = true :=
  ⟨⟨_, rfl, by decide, by decide⟩, ⟨_, rfl, by decide, by decide⟩, ⟨_, rfl, by decide, by decide⟩⟩

/-- A state for each of the four tests, with the operand checks at their first failing values. -/
theorem witness_CommandTestsInOrder :
    statusFault (unitIn 0x06 [.write 0x23 0x03]).status = true ∧ IllegalByte 0x40 ∧
    OperandCheckFails 0x11 (unitWith [] [] 32 0 0 []).data ∧ OperandCheckFails 0x19 (unitWith [] [] 128 0 0 []).data ∧
    OperandCheckFails 0x03 (unitWith [] [] 0 33 0 []).data ∧ OperandCheckFails 0x0B (unitWith [] [] 0 0 129 []).data ∧
    ¬ OperandCheckFails 0x01 (unitWith [] [] 31 0 0 []).data ∧ ¬ OperandCheckFails 0x0B (unitWith [] [] 0 128 128 []).data ∧
    ¬ IllegalByte 0x01 ∧ ¬ IllegalByte 0x0B :=
  ⟨by decide, by decide, by decide, by decide, by decide, by decide, by decide, by decide, by decide, by decide⟩

theorem witness_LatchedFaultRefusesCommands :
    (unitIn 0x0A [.write 0x23 0x40]).port = .write 0x23 0x40 :: [] ∧
    statusFault (unitIn 0x0A [.write 0x23 0x40]).status = true := by
  decide

theorem witness_FaultClearedOnlyByReset :
    ((unitIn 0x06 [.write 0x27 0xFF]).port = .write 0x27 0xFF :: [] ∧
      statusFault (unitIn 0x06 [.write 0x27 0xFF]).status = true) ∧
    (∃ t, step (unitIn 0x06 [.write 0x27 0xFF]) = .next t ∧ statusFault t.status = false) ∧
    (∃ t, step (unitIn 0x06 [.reset]) = .next t ∧ statusFault t.status = false) ∧
    ∃ t u, exec (.bitat .ka .w32) (unitWith [] [] 0x20 0 0 []) = .next t ∧ statusFault t.status = true ∧
      exec (.bitat .ka .w32) { t with status := 0, res := 0, cls := 0 } = .next u :=
  ⟨by decide, ⟨_, rfl, by decide⟩, ⟨_, rfl, by decide⟩, ⟨_, _, rfl, by decide, rfl⟩⟩

/-- The address ranges of R28 at their ends. -/
theorem witness_HostReadByAddress :
    (unitIn 0x01 [.read 0x3F]).port = .read 0x3F :: [] ∧
    (0x00 : Addr).toNat < 0x10 ∧ (0x0F : Addr).toNat < 0x10 ∧
    (0x10 ≤ (0x10 : Addr).toNat ∧ (0x10 : Addr).toNat < 0x20) ∧ (0x10 ≤ (0x1F : Addr).toNat ∧ (0x1F : Addr).toNat < 0x20) ∧
    0x28 ≤ (0x28 : Addr).toNat ∧ 0x28 ≤ (0x3F : Addr).toNat ∧
    statusValid (unitIn 0x01 []).status = true ∧ statusValid (unitIn 0x06 []).status = false ∧
    statusValid (unitIn 0x00 []).status = false := by
  decide

theorem witness_HostWriteByAddress :
    (unitIn 0x06 [.write 0x1F 0xAA]).port = .write 0x1F 0xAA :: [] ∧
    (0x0F : Addr).toNat < 0x10 ∧ (0x10 ≤ (0x1F : Addr).toNat ∧ (0x1F : Addr).toNat < 0x20) ∧
    0x28 ≤ (0x28 : Addr).toNat ∧ 0x28 ≤ (0x3F : Addr).toNat := by
  decide

theorem witness_UnmappedAddressesRefused :
    0x28 ≤ (0x28 : Addr).toNat ∧ (unitIn 0x00 [.read 0x28]).port = .read 0x28 :: [] ∧
    (unitIn 0x00 [.write 0x28 0x55]).port = .write 0x28 0x55 :: [] := by
  decide

theorem witness_AccessErrorsExactly :
    (unitIn 0x06 [.read 0x24]).port = .read 0x24 :: [] ∧ AccessError (unitIn 0x06 [.read 0x24]) (.read 0x24) ∧
    AccessError (unitIn 0x06 []) (.write 0x23 0x01) ∧ AccessError (unitIn 0x00 []) (.write 0x26 0x00) ∧
    AccessError (unitIn 0x00 []) (.read 0x27) ∧ AccessError (unitIn 0x00 []) (.write 0x3F 0x00) ∧
    CommandFaults (unitIn 0x00 [.write 0x23 0x00]) (.write 0x23 0x00) ∧
    CommandFaults (unitWith [] [] 0x20 0 0 [.write 0x23 0x01]) (.write 0x23 0x01) ∧
    ¬ CommandFaults (unitWith [] [] 0x1F 0 0 [.write 0x23 0x01]) (.write 0x23 0x01) :=
  ⟨by decide, by decide, by decide, by decide, by decide, by decide, by decide, by decide, by decide⟩

theorem witness_DataWriteThenRead :
    (0x00 : Addr).toNat ≤ 0x22 ∧ (0x22 : Addr).toNat ≤ 0x22 ∧
    (unitIn 0x06 [.write 0x00 0x11, .read 0x22]).port = .write 0x00 0x11 :: .read 0x22 :: [] ∧
    (unitIn 0x00 [.write 0x22 0x11, .read 0x22]).port = .write 0x22 0x11 :: .read 0x22 :: [] := by
  decide

theorem witness_KeyBitOrder :
    15 < 16 ∧
    (unitIn 0x00 [.write 0x1F 0x81]).port =
      .write (BitVec.ofNat 6 ((if Src.kb = .ka then 0x00 else 0x10) + 15)) 0x81 :: [] ∧
    (unitIn 0x00 [.write 0x00 0x81]).port =
      .write (BitVec.ofNat 6 ((if Src.ka = .ka then 0x00 else 0x10) + 0)) 0x81 :: [] ∧
    (∃ t, step (unitIn 0x00 [.write 0x1F 0x81]) = .next t) ∧ ∃ t, step (unitIn 0x00 [.write 0x00 0x81]) = .next t :=
  ⟨by decide, by decide, by decide, ⟨_, rfl⟩, ⟨_, rfl⟩⟩

theorem witness_OffendingOperandsReadable :
    (∃ t, step (unitWith [] [] 0x20 0 0 [.write 0x23 0x01, .read 0x20, .read 0x21, .read 0x22]) = .next t ∧
      statusFault t.status = true ∧ statusCause t.status = 1) ∧
    ∃ t, step (unitWith [] [] 0 0 0x81 [.write 0x23 0x0B, .read 0x20, .read 0x21, .read 0x22]) = .next t ∧
      statusFault t.status = true ∧ statusCause t.status = 2 :=
  ⟨⟨_, rfl, by decide, by decide⟩, ⟨_, rfl, by decide, by decide⟩⟩

theorem witness_ResetClearsStatusAndResults :
    (unitIn 0x06 [.reset]).port = .reset :: [] ∧
    (unitWith [1] [2] 3 4 5 [.read 0x26]).unit = ((unitWith [1] [2] 3 4 5 [.read 0x26]).data, 0x00, 0x00, 0x00) ∧
    (unitWith [1] [2] 3 4 5 [.read 0x26]).port = .read 0x26 :: [] := by
  decide

theorem witness_StepKeepsInvariants :
    (unitIn 0x0E [.write 0x27 0x00]).Inv ∧ ∃ t, step (unitIn 0x0E [.write 0x27 0x00]) = .next t :=
  ⟨by decide, _, rfl⟩

theorem witness_StepKeepsListedValues :
    (unitIn 0x01 [.write 0x23 0x02]).ListedValues ∧ ∃ t, step (unitIn 0x01 [.write 0x23 0x02]) = .next t :=
  ⟨by decide, _, rfl⟩

theorem witness_RunsStayLegal : (unitIn 0x01 [.reset]).Inv ∧ (unitIn 0x01 [.reset]).ListedValues := by decide

end Sys2Proof.Tests
end

section
/-!
SUPPORT. The leading-zero counter of R9 against `Nat.log2`, and the proof of O12 from it.
-/

namespace Sys2Proof.Machine

/-- The table of R9: the counter names the interval between two powers of 2 in which a non-zero byte lies. -/
theorem two_pow_le_and_lt_two_pow_of_clz8 (x : Byte) (hx : x ≠ 0) :
    2 ^ (7 - clz8 x) ≤ x.toNat ∧ x.toNat < 2 ^ (8 - clz8 x) := by
  have hpos : 0 < x.toNat := Nat.pos_of_ne_zero (BitVec.toNat_ne_iff_ne.mpr hx)
  have hlt : x.toNat < 256 := x.isLt
  unfold clz8
  -- one goal a row of the table; the last one, for 0, contradicts `hpos`
  split_ifs <;> omega

/-- The counter and the place of the highest 1 bit: `floor(log2(x))` is `7 - clz8(x)` (R9). -/
theorem log2_toNat_eq_seven_sub_clz8 (x : Byte) (hx : x ≠ 0) : Nat.log2 x.toNat = 7 - clz8 x := by
  have hne : x.toNat ≠ 0 := BitVec.toNat_ne_iff_ne.mpr hx
  have hexp : 7 - clz8 x + 1 = 8 - clz8 x := by
    have := clz8_lt x hx
    omega
  rw [Nat.log2_eq_iff hne, hexp]
  exact two_pow_le_and_lt_two_pow_of_clz8 x hx

/-- The highest 1 bit of a non-zero vector is at `floor(log2(x))`. -/
theorem getLsbD_log2_toNat {w : Nat} (x : BitVec w) (hx : x.toNat ≠ 0) : x.getLsbD (Nat.log2 x.toNat) = true := by
  rw [← BitVec.testBit_toNat]
  exact Nat.testBit_log2 hx

/-- Above `floor(log2(x))` every bit of a vector is 0. -/
theorem getLsbD_eq_false_of_log2_lt {w : Nat} (x : BitVec w) (hx : x.toNat ≠ 0) {b : Nat}
    (hb : Nat.log2 x.toNat < b) : x.getLsbD b = false := by
  rw [← BitVec.testBit_toNat]
  exact Nat.testBit_lt_two_pow ((Nat.log2_lt hx).mp hb)

end Sys2Proof.Machine

namespace Sys2Proof.Proofs

open Sys2Proof.Machine

/-- Settles O12: the table of R9 gives `floor(log2(x))`, and with it the first 1 bit and the 0 bits above it. -/
theorem clz8CountsLeadingZeros : Obligations.Clz8CountsLeadingZeros := by
  unfold Obligations.Clz8CountsLeadingZeros
  intro x hx
  have hne : x.toNat ≠ 0 := BitVec.toNat_ne_iff_ne.mpr hx
  have hle : clz8 x ≤ 7 := Nat.le_of_lt_succ (clz8_lt x hx)
  have hlog : Nat.log2 x.toNat = 7 - clz8 x := log2_toNat_eq_seven_sub_clz8 x hx
  obtain ⟨hlow, hhigh⟩ := two_pow_le_and_lt_two_pow_of_clz8 x hx
  refine ⟨by omega, hle, ?_, ?_, hlow, hhigh⟩
  · rw [← hlog]
    exact getLsbD_log2_toNat x hne
  · intro b _ hb
    exact getLsbD_eq_false_of_log2_lt x hne (hlog ▸ hb)

end Sys2Proof.Proofs
end

section
/-!
SUPPORT. The address map of R28 row by row, and what a step that serves a read or a write does at each kind of row
(20_memory.md R30, R31).
-/

namespace Sys2Proof.Machine

/-! ### The address map -/

/-- 0x00 to 0x0F name the bytes of `KA` (R28). -/
theorem locate_ka {a : Addr} (h : a.toNat < 0x10) : locate a = .ka a.toNat := by
  simp [locate, h]

/-- 0x10 to 0x1F name the bytes of `KB` (R28). -/
theorem locate_kb {a : Addr} (h : 0x10 ≤ a.toNat ∧ a.toNat < 0x20) : locate a = .kb (a.toNat - 0x10) := by
  obtain ⟨hlow, hhigh⟩ := h
  simp [locate, Nat.not_lt.mpr hlow, hhigh]

/-- 0x28 to 0x3F name nothing (R36). -/
theorem locate_unmapped {a : Addr} (h : 0x28 ≤ a.toNat) : locate a = .unmapped := by
  unfold locate
  -- every row of the table above the last one is an address below 0x28
  repeat rw [if_neg (by omega)]

/-! ### Key bytes -/

/-- Replacing one of the 16 bytes a key register has (R31). -/
theorem setKeyByte_eq_set (k : Key) {j : Nat} (d : Byte) (h : j < 16) : setKeyByte k j d = k.set j d := by
  ext i hi
  simp only [setKeyByte, Vector.getElem_setIfInBounds, Vector.getElem_set]

/-! ### Reads and writes as steps -/

section
variable {s : State} {a : Addr} {d : Byte} {rest : List HostEvent}

/-- What a read gives depends on the unit's registers, not on the events still pending (R39). -/
@[simp] theorem readLoc_withPort (s : State) (p : List HostEvent) (l : Loc) :
    readLoc (s.withPort p) l = readLoc s l := by
  cases l <;> rfl

/-- `RES` can be read while `STATUS.VALID = 1` (R30). -/
theorem readLoc_res_of_valid (h : statusValid s.status = true) : readLoc s .res = some s.res := by
  simp [readLoc, State.valid, h]

/-- `CLS` can be read while `STATUS.VALID = 1` (R30). -/
theorem readLoc_cls_of_valid (h : statusValid s.status = true) : readLoc s .cls = some s.cls := by
  simp [readLoc, State.valid, h]

/-- `RES` cannot be read while `STATUS.VALID = 0` (R30). -/
theorem readLoc_res_of_not_valid (h : statusValid s.status = false) : readLoc s .res = none := by
  simp [readLoc, State.valid, h]

/-- `CLS` cannot be read while `STATUS.VALID = 0` (R30). -/
theorem readLoc_cls_of_not_valid (h : statusValid s.status = false) : readLoc s .cls = none := by
  simp [readLoc, State.valid, h]

/-- A read of a location that gives a byte answers it with `err = 0` and changes nothing else (R30). -/
theorem step_read_of_some (hp : s.port = .read a :: rest) (hd : readLoc s (locate a) = some d) :
    step s = .next { s with port := rest, answers := s.answers ++ [.read d false] } := by
  simp only [step_serves hp, serve, hostRead, readLoc_withPort, hd]
  rfl

/-- A read of a location that gives none answers a free value with `err = 1`, and no register of the unit changes
(R30). -/
theorem step_read_of_none (hp : s.port = .read a :: rest) (hd : readLoc s (locate a) = none) :
    ∃ (t : State) (v : Byte), step s = .next t ∧ t.unit = s.unit ∧ t.port = rest ∧
      t.answers = s.answers ++ [.read v true] := by
  have hstep : step s = refuseRead (s.withPort rest) := by
    simp only [step_serves hp, serve, hostRead, readLoc_withPort, hd]
  exact ⟨_, _, hstep.trans (refuseRead_next.mpr rfl), rfl, rfl, rfl⟩

/-- A write to a byte of `KA` replaces that byte (R31). -/
theorem step_write_ka (hp : s.port = .write a d :: rest) (h : a.toNat < 0x10) :
    step s = .next { s with
      port := rest, data := { s.data with ka := s.data.ka.set a.toNat d }
      answers := s.answers ++ [.write false] } := by
  simp only [step_serves hp, serve, hostWrite, locate_ka h, setKeyByte_eq_set _ d h]
  rfl

/-- A write to a byte of `KB` replaces that byte (R31). -/
theorem step_write_kb (hp : s.port = .write a d :: rest) (h : 0x10 ≤ a.toNat ∧ a.toNat < 0x20) :
    step s = .next { s with
      port := rest, data := { s.data with kb := s.data.kb.set (a.toNat - 0x10) d }
      answers := s.answers ++ [.write false] } := by
  have hj : a.toNat - 0x10 < 16 := by omega
  simp only [step_serves hp, serve, hostWrite, locate_kb h, setKeyByte_eq_set _ d hj]
  rfl

/-- A write to a read-only or an unmapped location answers `err = 1` and stores nothing (R31, R36). -/
theorem step_write_refused (hp : s.port = .write a d :: rest)
    (h : locate a ∈ [Loc.res, .cls, .status, .unmapped]) :
    step s = .next { s with port := rest, answers := s.answers ++ [.write true] } := by
  have hrefuse : hostWrite a d (s.withPort rest) = refuseWrite (s.withPort rest) := by
    simp only [List.mem_cons, List.not_mem_nil, or_false] at h
    obtain h | h | h | h := h <;> simp only [hostWrite, h]
  exact (step_serves hp).trans hrefuse

end

end Sys2Proof.Machine
end

section
/-!
SUPPORT. The proofs of O34, O35 and O36, from the address map and the steps above.
-/

namespace Sys2Proof.Proofs

open Sys2Proof.Machine

/-- Settles O34: at each address the map names a location, and the step is the one of a location that gives a byte or of
one that gives none. -/
theorem hostReadByAddress : Obligations.HostReadByAddress := by
  unfold Obligations.HostReadByAddress
  intro a s rest hp
  refine ⟨fun h => ?ka, fun h => ?kb, ?idx, ?plen, ?depth, ?status, ?res, ?cls, ?refused⟩
  case ka => exact step_read_of_some hp (by simp only [locate_ka h, readLoc, keyByte_eq _ h])
  case kb =>
    have hj : a.toNat - 0x10 < 16 := by omega
    exact step_read_of_some hp (by simp only [locate_kb h, readLoc, keyByte_eq _ hj])
  case idx => rintro rfl; exact step_read_of_some hp rfl
  case plen => rintro rfl; exact step_read_of_some hp rfl
  case depth => rintro rfl; exact step_read_of_some hp rfl
  case status => rintro rfl; exact step_read_of_some hp rfl
  case res => rintro rfl hvalid; exact step_read_of_some hp (readLoc_res_of_valid hvalid)
  case cls => rintro rfl hvalid; exact step_read_of_some hp (readLoc_cls_of_valid hvalid)
  case refused =>
    rintro (rfl | rfl | hun | ⟨rfl | rfl, hvalid⟩)
    · exact step_read_of_none hp rfl
    · exact step_read_of_none hp rfl
    · exact step_read_of_none hp (by rw [locate_unmapped hun]; rfl)
    · exact step_read_of_none hp (readLoc_res_of_not_valid hvalid)
    · exact step_read_of_none hp (readLoc_cls_of_not_valid hvalid)

/-- Settles O35: at a byte of a key register by the lemma of that register, at a refused address by the one lemma for all
of them, and at each single address by the map's row. -/
theorem hostWriteByAddress : Obligations.HostWriteByAddress := by
  unfold Obligations.HostWriteByAddress
  intro a d s rest hp
  refine ⟨step_write_ka hp, step_write_kb hp, ?idx, ?plen, ?depth, ?cmd, ?srst, ?refused⟩
  case idx => rintro rfl; exact step_serves hp
  case plen => rintro rfl; exact step_serves hp
  case depth => rintro rfl; exact step_serves hp
  case cmd => rintro rfl; exact step_serves hp
  case srst => rintro rfl; exact step_serves hp
  case refused =>
    rintro (rfl | rfl | rfl | hun)
    · exact step_write_refused hp (by decide)
    · exact step_write_refused hp (by decide)
    · exact step_write_refused hp (by decide)
    · exact step_write_refused hp (by simp [locate_unmapped hun])

/-- Settles O36: an unmapped address gives no byte to a read and is one of the locations that refuse a write. -/
theorem unmappedAddressesRefused : Obligations.UnmappedAddressesRefused := by
  unfold Obligations.UnmappedAddressesRefused
  intro a s rest hun
  refine ⟨fun hp => ?_, fun d hp => ?_⟩
  · obtain ⟨t, v, hstep, hunit, -, hans⟩ := step_read_of_none hp (by rw [locate_unmapped hun]; rfl)
    exact ⟨t, v, hstep, hunit, hans⟩
  · exact ⟨_, step_write_refused hp (by simp [locate_unmapped hun]), rfl, rfl⟩

end Sys2Proof.Proofs
end

section
/-!
SUPPORT. The three conditions of 30_encoding.md R49 as numbers of the byte, as checks of its fields and as what the
decoder refuses, and the proof of O3 from them.
-/

namespace Sys2Proof.Machine

/-! ### The fields of a byte as numbers (R43) -/

@[simp] theorem fieldsOf_rsv_toNat (c : Byte) : (fieldsOf c).rsv.toNat = c.toNat / 32 := by
  have hlt : c.toNat < 256 := c.isLt
  simp only [fieldsOf, BitVec.extractLsb'_toNat, Nat.shiftRight_eq_div_pow]
  omega

@[simp] theorem fieldsOf_src_toNat (c : Byte) : (fieldsOf c).src.toNat = c.toNat / 16 % 2 := by
  simp only [fieldsOf, BitVec.extractLsb'_toNat, Nat.shiftRight_eq_div_pow, Nat.reducePow]

@[simp] theorem fieldsOf_op_toNat (c : Byte) : (fieldsOf c).op.toNat = c.toNat % 8 := by
  simp only [fieldsOf, BitVec.extractLsb'_toNat]
  omega

/-! ### Illegal bytes -/

/-- The conditions of R49 hold of a byte exactly when one of the three checks of its fields fails. -/
theorem illegalByte_iff_fieldsOf_not_wellFormed (c : Byte) :
    IllegalByte c ↔ (fieldsOf c).wellFormed = false := by
  have hrsv : (fieldsOf c).rsvClear = false ↔ c.toNat / 32 ≠ 0 := by
    simp [CommandFields.rsvClear, ← BitVec.toNat_inj]
  have hop : (fieldsOf c).opAssigned = false ↔ c.toNat % 8 ∈ [0, 4, 5, 6, 7] := by
    simp only [CommandFields.opAssigned, Bool.or_eq_false_iff, beq_eq_false_iff_ne, ← BitVec.toNat_ne_iff_ne,
      fieldsOf_op_toNat, BitVec.reduceToNat, List.mem_cons, List.not_mem_nil, or_false]
    omega
  have hsrc : (fieldsOf c).srcAllowed = false ↔ c.toNat / 16 % 2 = 1 ∧ c.toNat % 8 ∈ [2, 3] := by
    simp [CommandFields.srcAllowed, ← BitVec.toNat_inj, or_iff_not_imp_left]
  rw [CommandFields.wellFormed, Bool.and_eq_false_iff, Bool.and_eq_false_iff, hrsv, hop, hsrc]
  tauto

/-- The decoder refuses fields that fail a check of R49. -/
theorem decodeFields_error_of_not_wellFormed (f : CommandFields) (h : f.wellFormed = false) :
    ∃ e, decodeFields f = .error e := by
  simp only [CommandFields.wellFormed, CommandFields.rsvClear, CommandFields.opAssigned, CommandFields.srcAllowed] at h
  unfold decodeFields
  -- each branch refuses, or selects a command and so contradicts `h`
  split_ifs with hrsv hbitat hcpl hsrc hclass hsrc
  · exact ⟨_, rfl⟩
  · simp [not_not.mp hrsv, hbitat] at h
  · simp [not_not.mp hrsv, hcpl, hsrc] at h
  · exact ⟨_, rfl⟩
  · simp [not_not.mp hrsv, hclass, hsrc] at h
  · exact ⟨_, rfl⟩
  · exact ⟨_, rfl⟩

/-- The decoder refuses the bytes of R49. -/
theorem decode_error_of_illegalByte {c : Byte} (h : IllegalByte c) : ∃ e, decode c = .error e :=
  decodeFields_error_of_not_wellFormed _ ((illegalByte_iff_fieldsOf_not_wellFormed c).mp h)

/-- The bytes R49 leaves are the eight of the table of R48. -/
theorem illegalByte_iff_not_mem_legal (c : Byte) :
    IllegalByte c ↔ c ∉ ([0x01, 0x09, 0x11, 0x19, 0x02, 0x0A, 0x03, 0x0B] : List Byte) := by
  have hlt : c.toNat < 256 := c.isLt
  simp only [IllegalByte, List.mem_cons, List.not_mem_nil, or_false, ← BitVec.toNat_inj, BitVec.reduceToNat]
  omega

/-- The numbers of the illegal bytes are the 256 byte values without the eight legal ones. -/
theorem filter_illegalByte_range :
    (Finset.range 256).filter (fun n => IllegalByte (BitVec.ofNat 8 n)) =
      Finset.range 256 \ {0x01, 0x09, 0x11, 0x19, 0x02, 0x0A, 0x03, 0x0B} := by
  ext n
  simp only [Finset.mem_filter, Finset.mem_sdiff, Finset.mem_range, Finset.mem_insert,
    Finset.mem_singleton, illegalByte_iff_not_mem_legal, List.mem_cons, List.not_mem_nil, or_false]
  bv_omega

/-- There are 256 - 8 illegal bytes. -/
theorem length_filter_illegalByte :
    ((List.range 256).filter fun n => decide (IllegalByte (BitVec.ofNat 8 n))).length = 248 := by
  calc ((List.range 256).filter fun n => decide (IllegalByte (BitVec.ofNat 8 n))).length
      = Nat.count (fun n => IllegalByte (BitVec.ofNat 8 n)) 256 := List.countP_eq_length_filter.symm
    _ = (Finset.range 256 \ {0x01, 0x09, 0x11, 0x19, 0x02, 0x0A, 0x03, 0x0B}).card := by
      rw [Nat.count_eq_card_filter_range, filter_illegalByte_range]
    _ = 256 - 8 := by
      rw [Finset.card_sdiff_of_subset (by simp [Finset.insert_subset_iff]), Finset.card_range]
      rfl

/-- Executing a byte of R49 with no fault latched raises ILLEGAL_CMD (R76). -/
theorem executeByte_of_illegalByte {c : Byte} {s : State} (h : IllegalByte c) (hl : s.latched = false) :
    executeByte c s = raiseFault .illegalCmd s := by
  obtain ⟨e, he⟩ := decode_error_of_illegalByte h
  simp [executeByte_eq, hl, he]

end Sys2Proof.Machine

namespace Sys2Proof.Proofs

open Sys2Proof.Machine

/-- Settles O3: the three conditions leave the eight bytes of the table, and the step that executes any other byte is the
one that raises ILLEGAL_CMD. -/
theorem illegalByteRaisesIllegalCmd : Obligations.IllegalByteRaisesIllegalCmd := by
  unfold Obligations.IllegalByteRaisesIllegalCmd
  refine ⟨illegalByte_iff_not_mem_legal, length_filter_illegalByte, fun c s rest hp hill hclear => ?_⟩
  calc step s
      = executeByte c (s.withPort rest) := step_serves hp
    _ = raiseFault .illegalCmd (s.withPort rest) := executeByte_of_illegalByte hill hclear
    _ = .next { s with port := rest, status := 0x0E, answers := s.answers ++ [.write true] } := rfl

end Sys2Proof.Proofs
end

section
/-!
SUPPORT. The bit at a position of a key as the rule writes it, twice (40_bitat.md R53), and the proof of O6 from it.
-/

namespace Sys2Proof.Machine

/-- `bitAt` is a bit of one byte of the register, the first formula of R53. -/
theorem bitAt_eq_getLsbD (k : Key) {i : Nat} (h : i / 8 < 16) : bitAt k i = k[i / 8].getLsbD (7 - i % 8) := by
  rw [bitAt, keyByte_eq k h]

/-- `bitAt` by division, the second formula of R53. -/
theorem bitAt_toNat (k : Key) {i : Nat} (h : i / 8 < 16) :
    (bitAt k i).toNat = k[i / 8].toNat / 2 ^ (7 - i % 8) % 2 := by
  rw [bitAt_eq_getLsbD k h, ← BitVec.testBit_toNat, Nat.toNat_testBit]

/-- Two keys with the same byte `i div 8` have the same bit at `i` (R53). -/
theorem bitAt_congr {k k' : Key} {i : Nat} (h : i / 8 < 16) (hbyte : k'[i / 8] = k[i / 8]) :
    bitAt k' i = bitAt k i := by
  rw [bitAt_eq_getLsbD k' h, bitAt_eq_getLsbD k h, hbyte]

end Sys2Proof.Machine

namespace Sys2Proof.Proofs

open Sys2Proof.Machine

/-- Settles O6: the position lies in one of the key's bytes, and `bitAt` reads that byte alone, by either formula. -/
theorem bitAtIsBitOfByte : Obligations.BitAtIsBitOfByte := by
  unfold Obligations.BitAtIsBitOfByte
  intro k fam i hi
  exact ⟨Nat.le_sub_one_of_lt (Nat.div_lt_of_lt_mul hi), fun h =>
    ⟨bitAt_eq_getLsbD k h, bitAt_toNat k h, fun _ hbyte => bitAt_congr h hbyte⟩⟩

end Sys2Proof.Proofs
end

section
/-!
SUPPORT. What a command does with the data registers: it leaves them as they are (10_state.md R14), it depends on them
through its effect alone (R12), and on success its effect stands in `RES` and `CLS`. The proof of O9 from it.
-/

namespace Sys2Proof.Machine

section
variable {s t : State} {i : Instr}

/-- A command writes no data register (R14). -/
theorem exec_keeps_data (h : exec i s = .next t) : t.data = s.data := by
  obtain ⟨-, rfl⟩ | ⟨-, c, rfl⟩ | ⟨-, res, cls, rfl⟩ := exec_cases h
  · rfl
  · rfl
  · rfl

/-- Data registers on which a command has the same effect can stand in for those there are: but for the registers
themselves the command does the same (R12). -/
theorem exec_withData {d : DataRegs} (heffect : commandEffect i d = commandEffect i s.data)
    (h : exec i s = .next t) : exec i (s.withData d) = .next (t.withData d) := by
  cases hl : s.latched with
  | true =>
    rw [exec_latched i hl, refuseWrite_next] at h
    subst h
    exact exec_latched (s := s.withData d) i hl
  | false =>
    rw [exec_clear i hl] at h
    rw [exec_clear (s := s.withData d) i hl, State.withData_data, heffect]
    cases he : commandEffect i s.data with
    | error c =>
      rw [he, raiseFault_next] at h
      subst h
      rfl
    | ok rc =>
      rw [he, succeed_next] at h
      subst h
      rfl

/-- A command that ends with the `STATUS` of success has written its effect into `RES` and `CLS` (R54, R60, R68). -/
theorem commandEffect_eq_ok_of_statusDone (hl : s.latched = false) (h : exec i s = .next t)
    (hdone : t.status = statusDone) : commandEffect i s.data = .ok (t.res, t.cls) := by
  rw [exec_clear i hl] at h
  cases he : commandEffect i s.data with
  | error c =>
    rw [he, raiseFault_next] at h
    subst h
    have hne : statusFaulted c ≠ statusDone := by cases c <;> decide
    exact absurd hdone hne
  | ok rc =>
    rw [he, succeed_next] at h
    subst h
    rfl

end

/-! ### `BITAT` -/

/-- The selected key register does not depend on `PLEN` (R46). -/
@[simp] theorem DataRegs.key_set_plen (d : DataRegs) (p : Byte) (src : Src) :
    ({ d with plen := p } : DataRegs).key src = d.key src := by
  cases src <;> rfl

/-- The effect of `BITAT` does not depend on `PLEN` (R55). -/
theorem commandEffect_bitat_set_plen (src : Src) (fam : Fam) (d : DataRegs) (p : Byte) :
    commandEffect (.bitat src fam) { d with plen := p } = commandEffect (.bitat src fam) d := by
  simp only [commandEffect, DataRegs.key_set_plen]

/-- `BITAT` has no effect but the bit at `IDX`, zero-extended, in `RES` (R54). -/
theorem eq_zextBit_of_commandEffect_bitat {src : Src} {fam : Fam} {d : DataRegs} {res cls : Byte}
    (h : commandEffect (.bitat src fam) d = .ok (res, cls)) : res = zextBit (bitAt (d.key src) d.idx.toNat) := by
  simp only [commandEffect] at h
  split at h
  · cases h
  · cases h
    rfl

end Sys2Proof.Machine

namespace Sys2Proof.Proofs

open Sys2Proof.Machine

/-- Settles O9: the effect of `BITAT` is the same with any `PLEN`, so the command does the same but for that register, and
on success the effect is the raw bit. -/
theorem bitatIgnoresPrefixLength : Obligations.BitatIgnoresPrefixLength := by
  unfold Obligations.BitatIgnoresPrefixLength
  intro src fam s t p h
  refine ⟨?_, fun hdone hclear => ?_⟩
  · rw [exec_keeps_data h]
    exact exec_withData (commandEffect_bitat_set_plen src fam s.data p) h
  · exact eq_zextBit_of_commandEffect_bitat (commandEffect_eq_ok_of_statusDone hclear h hdone)

end Sys2Proof.Proofs
end

section
/-!
SUPPORT. The scan of R59 by its two ends, agreement of the keys over the length and the first byte where they differ, and
what it reads (41_commonprefixlen.md R58 to R62). The proofs of O13, O15 and O16 from it.
-/

namespace Sys2Proof.Machine

/-- A key has at most the 16 bytes of its register (R4, R13). -/
theorem famBytes_le_sixteen (fam : Fam) : famBytes fam ≤ 16 := by
  cases fam <;> decide

/-- The bit at position `8*j + p` is bit `7 - p` of byte `j` (R6, R53). -/
theorem bitAt_mul_add (k : Key) {j p : Nat} (hj : j < 16) (hp : p < 8) :
    bitAt k (8 * j + p) = k[j].getLsbD (7 - p) := by
  have hdiv : (8 * j + p) / 8 = j := by omega
  have hmod : (8 * j + p) % 8 = p := by omega
  rw [bitAt, hdiv, hmod, keyByte_eq k hj]

/-- A 1 bit of an XOR byte marks the position as different (R58). -/
theorem getLsbD_xor_iff_bitAt_ne (a b : Key) {j p : Nat} (hj : j < 16) (hp : p < 8) :
    (a[j] ^^^ b[j]).getLsbD (7 - p) = true ↔ bitAt a (8 * j + p) ≠ bitAt b (8 * j + p) := by
  rw [bitAt_mul_add a hj hp, bitAt_mul_add b hj hp, BitVec.getLsbD_xor, Bool.xor_iff_ne]

/-! ### Agreement over a length -/

/-- The first `n` bytes of two keys are the same. -/
def SameBytes (a b : Key) (n : Nat) : Prop := ∀ j, j < n → keyByte a j = keyByte b j

/-- Agreement in the bytes of the registers themselves. -/
theorem sameBytes_iff_getElem (a b : Key) {n : Nat} (hn : n ≤ 16) :
    SameBytes a b n ↔ ∀ j (_ : j < 16), j < n → a[j] = b[j] := by
  constructor
  · intro h j hj hjn
    simpa only [keyByte_eq _ hj] using h j hjn
  · intro h j hjn
    have hj : j < 16 := by omega
    simpa only [keyByte_eq _ hj] using h j hj hjn

/-- Keys that do not agree over a length have a first byte in it where they differ (R58). -/
theorem exists_first_difference {a b : Key} {n : Nat} (h : ¬ SameBytes a b n) :
    ∃ f, f < n ∧ SameBytes a b f ∧ keyByte a f ≠ keyByte b f := by
  have hex : ∃ j, j < n ∧ keyByte a j ≠ keyByte b j := by simpa [SameBytes] using h
  obtain ⟨hlt, hne⟩ := Nat.find_spec hex
  refine ⟨Nat.find hex, hlt, fun j hj => ?_, hne⟩
  by_contra hdiff
  exact Nat.find_min hex hj ⟨hj.trans hlt, hdiff⟩

/-! ### The scan -/

section
variable {a b : Key}

/-- The scan goes on past a byte that is the same in both keys (R59). -/
theorem cplFrom_succ_of_eq (n : Nat) {j : Nat} (h : keyByte a j = keyByte b j) :
    cplFrom a b (n + 1) j = cplFrom a b n (j + 1) := by
  simp [cplFrom, h]

/-- The scan ends at a byte where the keys differ (R59). -/
theorem cplFrom_succ_of_ne (n : Nat) {j : Nat} (h : keyByte a j ≠ keyByte b j) :
    cplFrom a b (n + 1) j = 8 * j + clz8 (keyByte a j ^^^ keyByte b j) := by
  simp [cplFrom, h]

/-- The first `m` bytes being the same, the scan comes to byte `m` (R59). -/
theorem cpl_add_of_sameBytes {m : Nat} (n : Nat) (h : SameBytes a b m) : cpl a b (m + n) = cplFrom a b n m := by
  induction m generalizing n with
  | zero => rw [Nat.zero_add, cpl]
  | succ m ih =>
    calc cpl a b (m + 1 + n)
        = cpl a b (m + (n + 1)) := by rw [Nat.add_assoc, Nat.add_comm 1 n]
      _ = cplFrom a b (n + 1) m := ih (n + 1) fun j hj => h j (Nat.lt_succ_of_lt hj)
      _ = cplFrom a b n (m + 1) := cplFrom_succ_of_eq n (h m (Nat.lt_succ_self m))

/-- With no non-zero XOR byte in the length, the common prefix is all of it (R59). -/
theorem cpl_of_sameBytes {n : Nat} (h : SameBytes a b n) : cpl a b n = 8 * n :=
  cpl_add_of_sameBytes 0 h

/-- At the first non-zero XOR byte the common prefix ends, in that byte (R59). -/
theorem cpl_of_first_difference {n f : Nat} (hf : f < n) (hsame : SameBytes a b f)
    (hne : keyByte a f ≠ keyByte b f) : cpl a b n = 8 * f + clz8 (keyByte a f ^^^ keyByte b f) := by
  obtain ⟨m, rfl⟩ := Nat.exists_eq_add_of_lt hf
  exact (cpl_add_of_sameBytes (m + 1) hsame).trans (cplFrom_succ_of_ne m hne)

/-- Keys that differ within the length have a shorter common prefix (R62). -/
theorem cpl_lt_of_not_sameBytes {n : Nat} (h : ¬ SameBytes a b n) : cpl a b n < 8 * n := by
  obtain ⟨f, hf, hsame, hne⟩ := exists_first_difference h
  have hclz : clz8 (keyByte a f ^^^ keyByte b f) < 8 := clz8_lt _ (mt BitVec.xor_eq_zero_iff.mp hne)
  rw [cpl_of_first_difference hf hsame hne]
  omega

/-- The common prefix is the whole length exactly for keys that agree over it (R62). -/
theorem cpl_eq_iff_sameBytes {n : Nat} : cpl a b n = 8 * n ↔ SameBytes a b n :=
  ⟨fun h => by_contra fun hdiff => (cpl_lt_of_not_sameBytes hdiff).ne h, cpl_of_sameBytes⟩

/-- The common prefix is no longer than the keys (R62). -/
theorem cpl_le (a b : Key) (n : Nat) : cpl a b n ≤ 8 * n := by
  by_cases h : SameBytes a b n
  · exact (cpl_of_sameBytes h).le
  · exact (cpl_lt_of_not_sameBytes h).le

/-- A key has all of its length in common with itself (R62). -/
theorem cpl_self (a : Key) (n : Nat) : cpl a a n = 8 * n :=
  cpl_of_sameBytes fun _ _ => rfl

/-- The scan reads nothing but the XOR bytes left to it (R58, R59). -/
theorem cplFrom_congr_xor {a' b' : Key} (n j : Nat)
    (h : ∀ i, j ≤ i → i < j + n → keyByte a' i ^^^ keyByte b' i = keyByte a i ^^^ keyByte b i) :
    cplFrom a' b' n j = cplFrom a b n j := by
  induction n generalizing j with
  | zero => rfl
  | succ n ih =>
    have hhead := h j le_rfl (by omega)
    have htail := ih (j + 1) fun i hlow hhigh => h i (by omega) (by omega)
    simp only [cplFrom, hhead, htail]

/-- The common prefix length is a function of the XOR bytes in the length (R58, R59). -/
theorem cpl_congr_xor {a' b' : Key} {n : Nat}
    (h : ∀ i, i < n → keyByte a' i ^^^ keyByte b' i = keyByte a i ^^^ keyByte b i) : cpl a' b' n = cpl a b n :=
  cplFrom_congr_xor n 0 fun i _ hi => h i (by omega)

/-- Bytes beyond the length do not matter to the common prefix length (R59). -/
theorem cpl_congr_sameBytes {a' b' : Key} {n : Nat} (ha : SameBytes a' a n) (hb : SameBytes b' b n) :
    cpl a' b' n = cpl a b n :=
  cpl_congr_xor fun i hi => by rw [ha i hi, hb i hi]

/-- XOR does not tell the two keys apart, and so neither does the common prefix length (R61). -/
theorem cpl_comm (a b : Key) (n : Nat) : cpl a b n = cpl b a n :=
  cpl_congr_xor fun _ _ => BitVec.xor_comm _ _

end

/-! ### `CPL` -/

/-- The effect of `CPL` is the same with the two key registers exchanged (R61). -/
theorem commandEffect_cpl_swap (fam : Fam) (d : DataRegs) :
    commandEffect (.cpl fam) { d with ka := d.kb, kb := d.ka } = commandEffect (.cpl fam) d := by
  simp only [commandEffect, cpl_comm d.kb d.ka]

/-- With no fault latched `CPL` succeeds on every content of the registers (R60). -/
theorem exec_cpl_clear (fam : Fam) {s : State} (hl : s.latched = false) :
    exec (.cpl fam) s = succeed (BitVec.ofNat 8 (cpl s.data.ka s.data.kb (famBytes fam))) 0 s :=
  exec_clear (.cpl fam) hl

end Sys2Proof.Machine

namespace Sys2Proof.Proofs

open Sys2Proof.Machine

/-- Settles O13: the scan comes to the first byte where the keys differ or to the end of the length, and reads no byte
beyond. -/
theorem cplStopsAtFirstDifference : Obligations.CplStopsAtFirstDifference := by
  unfold Obligations.CplStopsAtFirstDifference
  intro a b fam
  have hle : famBytes fam ≤ 16 := famBytes_le_sixteen fam
  refine ⟨fun j hj => ⟨BitVec.xor_eq_zero_iff, fun p hp => getLsbD_xor_iff_bitAt_ne a b hj hp⟩,
    fun hsame => cpl_of_sameBytes ((sameBytes_iff_getElem a b hle).mpr hsame), ?stops, ?exists_first, ?later⟩
  case stops =>
    intro f hf hfL hzero hne
    have hsame : SameBytes a b f :=
      (sameBytes_iff_getElem a b hf.le).mpr fun j _ hjf => BitVec.xor_eq_zero_iff.mp (hzero j hjf)
    have hdiff : keyByte a f ≠ keyByte b f := by
      rw [keyByte_eq a hf, keyByte_eq b hf]
      exact mt BitVec.xor_eq_zero_iff.mpr hne
    rw [cpl_of_first_difference hfL hsame hdiff, keyByte_eq a hf, keyByte_eq b hf]
  case exists_first =>
    constructor
    · rintro ⟨f, hf, hfL, -, hne⟩
      exact ⟨f, hf, hfL, mt BitVec.xor_eq_zero_iff.mpr hne⟩
    · rintro ⟨j, hj, hjL, hne⟩
      obtain ⟨f, hfL, hsame, hdiff⟩ := exists_first_difference (n := famBytes fam)
        fun hall => hne ((sameBytes_iff_getElem a b hle).mp hall j hj hjL)
      have hf : f < 16 := by omega
      rw [keyByte_eq a hf, keyByte_eq b hf] at hdiff
      exact ⟨f, hf, hfL, fun i hi => BitVec.xor_eq_zero_iff.mpr
        ((sameBytes_iff_getElem a b hf.le).mp hsame i _ hi), mt BitVec.xor_eq_zero_iff.mp hdiff⟩
  case later =>
    intro a' b' h
    exact cpl_congr_sameBytes ((sameBytes_iff_getElem a' a hle).mpr fun j hj hjL => (h j hj hjL).1)
      ((sameBytes_iff_getElem b' b hle).mpr fun j hj hjL => (h j hj hjL).2)

/-- Settles O15: exchanging the key registers leaves the effect of `CPL` as it is, so it does the same but for them. -/
theorem cplIsSymmetric : Obligations.CplIsSymmetric := by
  unfold Obligations.CplIsSymmetric
  refine ⟨cpl_comm, fun fam s hclear => ?_⟩
  have hexec := (exec_cpl_clear fam (s := s) hclear).trans (succeed_next.mpr rfl)
  exact ⟨_, _, hexec, exec_withData (commandEffect_cpl_swap fam s.data) hexec, rfl⟩

/-- Settles O16: keys that agree over the length have all of it in common, and others less. -/
theorem cplRangeAndFullWidth : Obligations.CplRangeAndFullWidth := by
  unfold Obligations.CplRangeAndFullWidth
  intro a b fam
  have hbytes := sameBytes_iff_getElem a b (famBytes_le_sixteen fam)
  refine ⟨cpl_le a b _, cpl_eq_iff_sameBytes.trans hbytes, cpl_self a 4, cpl_self a 16, ?_⟩
  rintro ⟨j, hj, hjL, hne⟩
  have hlt : cpl a b (famBytes fam) < 8 * famBytes fam :=
    cpl_lt_of_not_sameBytes fun hall => hne (hbytes.mp hall j hj hjL)
  omega

end Sys2Proof.Proofs
end

section
/-!
SUPPORT. When a command with no fault latched ends in a fault, said of its effect, and the effect of `CLASS` on each side
of its operand check (42_classify.md R66 to R69). The proofs of O21 and O20 from it.
-/

namespace Sys2Proof.Machine

/-- The `STATUS` of a fault tells its cause (R77). -/
theorem statusFaulted_inj {c c' : Cause} : statusFaulted c = statusFaulted c' ↔ c = c' := by
  cases c <;> cases c' <;> decide

/-- The `STATUS` of a fault is not the one of success (R18). -/
theorem statusFaulted_ne_statusDone (c : Cause) : statusFaulted c ≠ statusDone := by
  cases c <;> decide

/-- With no fault latched a command does what taking a fault does exactly when its effect is that fault (R78). -/
theorem exec_eq_raiseFault_iff {i : Instr} {s : State} {c : Cause} (hl : s.latched = false) :
    exec i s = raiseFault c s ↔ commandEffect i s.data = .error c := by
  rw [exec_clear i hl]
  cases he : commandEffect i s.data with
  | error c' =>
    constructor
    · intro h
      have hstatus : statusFaulted c = statusFaulted c' := congrArg State.status (raiseFault_next.mp h)
      rw [statusFaulted_inj.mp hstatus]
    · rintro ⟨⟩
      rfl
  | ok rc =>
    constructor
    · intro h
      have hstatus : statusFaulted c = statusDone := congrArg State.status (succeed_next.mp h)
      exact absurd hstatus (statusFaulted_ne_statusDone c)
    · rintro ⟨⟩

/-! ### `CLASS` -/

/-- The width of a key in bits, family by family (R4). -/
theorem famBits_eq (fam : Fam) : famBits fam = if fam = .w32 then 32 else 128 := by
  cases fam <;> rfl

section
variable {fam : Fam} {d : DataRegs}

/-- `CLASS` with a length beyond the key has the effect INVALID_ARG (R69). -/
theorem commandEffect_classify_of_gt (h : d.plen.toNat > famBits fam ∨ d.depth.toNat > famBits fam) :
    commandEffect (.classify fam) d = .error .invalidArg :=
  if_pos h

/-- `CLASS` with both lengths within the key has the bounded common length and its outcome as effect (R68). -/
theorem commandEffect_classify_of_le (hp : d.plen.toNat ≤ famBits fam) (hd : d.depth.toNat ≤ famBits fam) :
    commandEffect (.classify fam) d =
      .ok (BitVec.ofNat 8 (boundedLength d fam),
        clsByte (outcomeKind (boundedLength d fam) d.plen.toNat d.depth.toNat)
          (childBit (outcomeKind (boundedLength d fam) d.plen.toNat d.depth.toNat) d.ka d.depth.toNat)) :=
  if_neg (not_or.mpr ⟨hp.not_gt, hd.not_gt⟩)

/-- `CLASS` has the effect INVALID_ARG exactly when a length is beyond the key (R69). -/
theorem commandEffect_classify_eq_invalidArg_iff :
    commandEffect (.classify fam) d = .error .invalidArg ↔
      d.plen.toNat > famBits fam ∨ d.depth.toNat > famBits fam := by
  refine ⟨fun h => ?_, commandEffect_classify_of_gt⟩
  by_contra hle
  obtain ⟨hp, hd⟩ := not_or.mp hle
  rw [commandEffect_classify_of_le (not_lt.mp hp) (not_lt.mp hd)] at h
  cases h

end

/-- The `CLS` of each outcome, its conditions in the order of R67, on the bytes of `PLEN` and `DEPTH`. -/
theorem clsByte_outcomeKind (m : Nat) (plen depth : Byte) (ka : Key) :
    clsByte (outcomeKind m plen.toNat depth.toNat)
        (childBit (outcomeKind m plen.toNat depth.toNat) ka depth.toNat) =
      if m < depth.toNat then 0x01 else if plen = depth then 0x02
      else if bitAt ka depth.toNat then 0x07 else 0x03 := by
  simp only [outcomeKind, BitVec.toNat_inj]
  split_ifs with hdiverge hexact hchild
  · rfl
  · rfl
  · simp only [childBit, hchild]
    rfl
  · simp only [childBit, Bool.eq_false_of_not_eq_true hchild]
    rfl

end Sys2Proof.Machine

namespace Sys2Proof.Proofs

open Sys2Proof.Machine

/-- Settles O21: the next state of the statement is the one of taking INVALID_ARG, which `CLASS` comes to exactly when that
is its effect. -/
theorem invalidArgFaultExactly : Obligations.InvalidArgFaultExactly := by
  unfold Obligations.InvalidArgFaultExactly
  intro fam s hclear
  have hbits : 8 * (if fam = .w32 then 4 else 16) = famBits fam := by cases fam <;> rfl
  rw [hbits]
  exact (exec_eq_raiseFault_iff (c := .invalidArg) hclear).trans commandEffect_classify_eq_invalidArg_iff

/-- Settles O20: with both lengths within the key the effect of `CLASS` is the bounded common length and the `CLS` of its
outcome, and a command that succeeds writes its effect. -/
theorem classifyReturnsOutcome : Obligations.ClassifyReturnsOutcome := by
  unfold Obligations.ClassifyReturnsOutcome
  intro fam s hclear hp hd m hm
  rw [← famBits_eq] at hp hd
  have hlen : boundedLength s.data fam = m := by rw [hm, boundedLength, min_assoc]
  rw [exec_clear _ hclear, commandEffect_classify_of_le hp hd, clsByte_outcomeKind, hlen]
  rfl

end Sys2Proof.Proofs
end

section
/-!
SUPPORT. The two ends of a command with no fault latched, each with the effect it comes from, and when the effect of a
command is BOUNDS (60_exceptions.md R74). The proof of O8 from it.
-/

namespace Sys2Proof.Machine

/-- The `STATUS` of success has no fault latched (R18). -/
theorem statusFault_statusDone_ne_true : statusFault statusDone ≠ true := by
  decide

/-- With no fault latched a command takes the fault that is its effect, or writes its effect (R78). -/
theorem exec_clear_cases {i : Instr} {s t : State} (hl : s.latched = false) (h : exec i s = .next t) :
    (∃ c, commandEffect i s.data = .error c ∧ t = (s.withStatus (statusFaulted c)).reply (.write true)) ∨
    ∃ rc, commandEffect i s.data = .ok rc ∧ t = (s.withResult rc.1 rc.2 statusDone).reply (.write false) := by
  rw [exec_clear i hl] at h
  cases he : commandEffect i s.data with
  | error c => rw [he] at h; exact .inl ⟨c, rfl, raiseFault_next.mp h⟩
  | ok rc => rw [he] at h; exact .inr ⟨rc, rfl, succeed_next.mp h⟩

/-- A command that ends with the `STATUS` of a fault has that fault as its effect (R77). -/
theorem commandEffect_eq_error_of_statusFaulted {i : Instr} {s t : State} {c : Cause} (hl : s.latched = false)
    (h : exec i s = .next t) (hstatus : t.status = statusFaulted c) : commandEffect i s.data = .error c := by
  obtain ⟨c', he, rfl⟩ | ⟨rc, -, rfl⟩ := exec_clear_cases hl h
  · rw [he, statusFaulted_inj.mp hstatus]
  · exact absurd hstatus.symm (statusFaulted_ne_statusDone c)

section
variable {src : Src} {fam : Fam} {d : DataRegs}

/-- `BITAT` beyond the key has the effect BOUNDS (R54). -/
theorem commandEffect_bitat_of_ge (h : d.idx.toNat ≥ famBits fam) :
    commandEffect (.bitat src fam) d = .error .bounds :=
  if_pos h

/-- `BITAT` within the key has the bit at `IDX` as effect (R54). -/
theorem commandEffect_bitat_of_lt (h : d.idx.toNat < famBits fam) :
    commandEffect (.bitat src fam) d = .ok (zextBit (bitAt (d.key src) d.idx.toNat), 0) :=
  if_neg h.not_ge

/-- A command has the effect BOUNDS exactly when it is `BITAT` beyond the key (R74). -/
theorem commandEffect_eq_bounds_iff {i : Instr} :
    commandEffect i d = .error .bounds ↔ ∃ src fam, i = .bitat src fam ∧ d.idx.toNat ≥ famBits fam := by
  constructor
  · intro h
    cases i with
    | bitat src fam =>
      refine ⟨src, fam, rfl, ?_⟩
      by_contra hlt
      rw [commandEffect_bitat_of_lt (not_le.mp hlt)] at h
      cases h
    | cpl fam => cases h
    | classify fam =>
      by_cases hgt : d.plen.toNat > famBits fam ∨ d.depth.toNat > famBits fam
      · rw [commandEffect_classify_of_gt hgt] at h
        cases h
      · obtain ⟨hp, hd⟩ := not_or.mp hgt
        rw [commandEffect_classify_of_le (not_lt.mp hp) (not_lt.mp hd)] at h
        cases h
  · rintro ⟨src, fam, rfl, h⟩
    exact commandEffect_bitat_of_ge h

end

end Sys2Proof.Machine

namespace Sys2Proof.Proofs

open Sys2Proof.Machine

/-- Settles O8: `STATUS` 0x06 is the one of BOUNDS, which is the effect of `BITAT` beyond the key and of no other
command. -/
theorem boundsFaultExactly : Obligations.BoundsFaultExactly := by
  unfold Obligations.BoundsFaultExactly
  refine ⟨fun src fam s hclear => ?_, fun fam s t hclear hexec hstatus => ?_⟩
  · have hbits : 8 * (if fam = .w32 then 4 else 16) = famBits fam := by cases fam <;> rfl
    rw [hbits]
    refine (exec_eq_raiseFault_iff (c := .bounds) hclear).trans (commandEffect_eq_bounds_iff.trans ?_)
    constructor
    · rintro ⟨_, _, ⟨⟩, hge⟩
      exact hge
    · intro hge
      exact ⟨src, fam, rfl, hge⟩
  · have hbounds {i : Instr} (h : exec i s = .next t) : commandEffect i s.data = .error .bounds :=
      commandEffect_eq_error_of_statusFaulted hclear h hstatus
    obtain hcpl | hclass := hexec
    · obtain ⟨_, _, ⟨⟩, -⟩ := commandEffect_eq_bounds_iff.mp (hbounds hcpl)
    · obtain ⟨_, _, ⟨⟩, -⟩ := commandEffect_eq_bounds_iff.mp (hbounds hclass)

end Sys2Proof.Proofs
end

section
/-!
SUPPORT. Every byte is one of R49 or the byte of a command, the operand check as the condition under which the effect of a
command is a fault, and what executing a byte comes to by the tests of 60_exceptions.md R78. The proofs of O30 and O31 from
them.
-/

namespace Sys2Proof.Machine

/-! ### Bytes and commands -/

/-- The byte of a command decodes to that command (R48). -/
theorem decode_encode (i : Instr) : decode (encode i) = .ok i := by
  cases i with
  | bitat src fam => cases src <;> cases fam <;> rfl
  | cpl fam => cases fam <;> rfl
  | classify fam => cases fam <;> rfl

/-- A byte that is not one of R49 is the byte of a command (R48). -/
theorem exists_encode_eq_of_not_illegalByte {c : Byte} (h : ¬ IllegalByte c) : ∃ i, encode i = c := by
  rw [illegalByte_iff_not_mem_legal, not_not] at h
  simp only [List.mem_cons, List.not_mem_nil, or_false] at h
  obtain rfl | rfl | rfl | rfl | rfl | rfl | rfl | rfl := h
  · exact ⟨.bitat .ka .w32, rfl⟩
  · exact ⟨.bitat .ka .w128, rfl⟩
  · exact ⟨.bitat .kb .w32, rfl⟩
  · exact ⟨.bitat .kb .w128, rfl⟩
  · exact ⟨.cpl .w32, rfl⟩
  · exact ⟨.cpl .w128, rfl⟩
  · exact ⟨.classify .w32, rfl⟩
  · exact ⟨.classify .w128, rfl⟩

/-- Executing the byte of a command runs that command (R48). -/
theorem executeByte_encode (i : Instr) (s : State) : executeByte (encode i) s = exec i s := by
  simp only [executeByte, decode_encode]

/-- With a fault latched every byte is refused (R79). -/
theorem executeByte_latched {s : State} (c : Byte) (hl : s.latched = true) : executeByte c s = refuseWrite s := by
  rw [executeByte_eq, if_pos hl]

/-! ### The operand check -/

section
variable {d : DataRegs}

/-- The operand check of `BITAT` fails for an index beyond the key (R54). -/
theorem operandCheckFails_bitat_iff {src : Src} {fam : Fam} :
    OperandCheckFails (encode (.bitat src fam)) d ↔ famBits fam ≤ d.idx.toNat := by
  cases src <;> cases fam <;>
    simp [OperandCheckFails, encode, Instr.fields, CommandFields.toByte, Src.bit, Fam.bit, famBits, famBytes]

/-- `CPL` has no operand check (R60). -/
theorem not_operandCheckFails_cpl (fam : Fam) : ¬ OperandCheckFails (encode (.cpl fam)) d := by
  cases fam <;> simp [OperandCheckFails, encode, Instr.fields, CommandFields.toByte, Fam.bit]

/-- The operand check of `CLASS` fails for a length beyond the key (R69). -/
theorem operandCheckFails_classify_iff {fam : Fam} :
    OperandCheckFails (encode (.classify fam)) d ↔ famBits fam < d.plen.toNat ∨ famBits fam < d.depth.toNat := by
  cases fam <;>
    simp [OperandCheckFails, encode, Instr.fields, CommandFields.toByte, Fam.bit, famBits, famBytes]

/-- A command whose operand check fails has a fault as its effect: INVALID_ARG for `CLASS`, else BOUNDS (R78). -/
theorem commandEffect_of_operandCheckFails {i : Instr} (h : OperandCheckFails (encode i) d) :
    commandEffect i d = .error (if encode i ∈ ([0x03, 0x0B] : List Byte) then .invalidArg else .bounds) := by
  cases i with
  | bitat src fam =>
    have hbyte : encode (.bitat src fam) ∉ ([0x03, 0x0B] : List Byte) := by cases src <;> cases fam <;> decide
    rw [if_neg hbyte, commandEffect_bitat_of_ge (operandCheckFails_bitat_iff.mp h)]
  | cpl fam => exact absurd h (not_operandCheckFails_cpl fam)
  | classify fam =>
    have hbyte : encode (.classify fam) ∈ ([0x03, 0x0B] : List Byte) := by cases fam <;> decide
    rw [if_pos hbyte, commandEffect_classify_of_gt (operandCheckFails_classify_iff.mp h)]

/-- A command whose operand check passes has a result as its effect (R78). -/
theorem exists_commandEffect_eq_ok {i : Instr} (h : ¬ OperandCheckFails (encode i) d) :
    ∃ rc, commandEffect i d = .ok rc := by
  cases i with
  | bitat src fam =>
    rw [operandCheckFails_bitat_iff, not_le] at h
    exact ⟨_, commandEffect_bitat_of_lt h⟩
  | cpl fam => exact ⟨_, rfl⟩
  | classify fam =>
    rw [operandCheckFails_classify_iff, not_or, not_lt, not_lt] at h
    obtain ⟨hp, hd⟩ := h
    exact ⟨_, commandEffect_classify_of_le hp hd⟩

end

/-- A command whose effect is a result, and no fault latched, writes it (R78). -/
theorem exec_eq_succeed {i : Instr} {s : State} {rc : Byte × Byte} (hl : s.latched = false)
    (he : commandEffect i s.data = .ok rc) : exec i s = succeed rc.1 rc.2 s := by
  rw [exec_clear i hl, he]

/-! ### Executing a byte -/

section
variable {c : Byte} {s : State} (hl : s.latched = false)
include hl

/-- The byte of a command whose operand check fails raises INVALID_ARG for `CLASS`, else BOUNDS (R78). -/
theorem executeByte_of_operandCheckFails (hill : ¬ IllegalByte c) (h : OperandCheckFails c s.data) :
    executeByte c s = raiseFault (if c ∈ ([0x03, 0x0B] : List Byte) then .invalidArg else .bounds) s := by
  obtain ⟨i, rfl⟩ := exists_encode_eq_of_not_illegalByte hill
  rw [executeByte_encode]
  exact (exec_eq_raiseFault_iff hl).mpr (commandEffect_of_operandCheckFails h)

/-- The byte of a command whose operand check passes ends in a result (R78). -/
theorem executeByte_of_operandCheckPasses (hill : ¬ IllegalByte c) (h : ¬ OperandCheckFails c s.data) :
    ∃ rc : Byte × Byte, executeByte c s = succeed rc.1 rc.2 s := by
  obtain ⟨i, rfl⟩ := exists_encode_eq_of_not_illegalByte hill
  obtain ⟨rc, hrc⟩ := exists_commandEffect_eq_ok h
  exact ⟨rc, (executeByte_encode i s).trans (exec_eq_succeed hl hrc)⟩

/-- With no fault latched a byte takes a fault if one of the tests of R78 fires, and ends in a result if none does. -/
theorem executeByte_clear_cases :
    ((IllegalByte c ∨ OperandCheckFails c s.data) ∧ ∃ cause, executeByte c s = raiseFault cause s) ∨
    (¬ (IllegalByte c ∨ OperandCheckFails c s.data) ∧ ∃ rc : Byte × Byte, executeByte c s = succeed rc.1 rc.2 s) := by
  by_cases hill : IllegalByte c
  · exact .inl ⟨.inl hill, _, executeByte_of_illegalByte hill hl⟩
  by_cases hcheck : OperandCheckFails c s.data
  · exact .inl ⟨.inr hcheck, _, executeByte_of_operandCheckFails hl hill hcheck⟩
  · exact .inr ⟨not_or.mpr ⟨hill, hcheck⟩, executeByte_of_operandCheckPasses hl hill hcheck⟩

end

/-- A step that serves a write to `CMD` executes the byte (R31). -/
theorem step_cmd {s : State} {c : Byte} {rest : List HostEvent} (hp : s.port = .write 0x23 c :: rest) :
    step s = executeByte c (s.withPort rest) :=
  step_serves hp

/-- While `STATUS.VALID = 0` a read of `RES` or `CLS` is refused, and no register of the unit changes (R30). -/
theorem step_read_result_of_not_valid {s : State} {a : Addr} {rest : List HostEvent}
    (hp : s.port = .read a :: rest) (ha : a = 0x24 ∨ a = 0x25) (hvalid : statusValid s.status = false) :
    ∃ (t : State) (v : Byte), step s = .next t ∧ t.unit = s.unit ∧ t.answers = s.answers ++ [Answer.read v true] := by
  have hnone : readLoc s (locate a) = none := by
    obtain rfl | rfl := ha
    · exact readLoc_res_of_not_valid hvalid
    · exact readLoc_cls_of_not_valid hvalid
  obtain ⟨t, v, hstep, hunit, -, hans⟩ := step_read_of_none hp hnone
  exact ⟨t, v, hstep, hunit, hans⟩

end Sys2Proof.Machine

namespace Sys2Proof.Proofs

open Sys2Proof.Machine

/-- Settles O30: a byte whose execution latches a fault has ended by taking one, and the `STATUS` of a fault has `VALID`
clear, so that `RES` and `CLS` give no byte. -/
theorem faultEntryWritesStatusOnly : Obligations.FaultEntryWritesStatusOnly := by
  unfold Obligations.FaultEntryWritesStatusOnly
  refine ⟨fun _ _ => rfl, ⟨rfl, rfl, rfl⟩, fun b s t rest hp hclear hstep hfault => ?_⟩
  rw [step_cmd hp] at hstep
  obtain ⟨-, c, he⟩ | ⟨-, rc, he⟩ := executeByte_clear_cases (c := b) (s := s.withPort rest) hclear
  · obtain rfl := raiseFault_next.mp (he.symm.trans hstep)
    obtain ⟨hvalid, -, hcause, -⟩ := statusFaulted_fields c
    exact ⟨c, rfl, hvalid, hcause, fun a later ha => step_read_result_of_not_valid rfl ha hvalid⟩
  · obtain rfl := succeed_next.mp (he.symm.trans hstep)
    exact absurd hfault statusFault_statusDone_ne_true

/-- Settles O31: the latch refuses, a byte of R49 raises ILLEGAL_CMD, and a command ends as its operand check says. -/
theorem commandTestsInOrder : Obligations.CommandTestsInOrder := by
  unfold Obligations.CommandTestsInOrder
  intro c s rest hp
  rw [step_cmd hp]
  by_cases hlatched : statusFault s.status = true
  · simp only [if_pos hlatched]
    exact ⟨_, executeByte_latched c hlatched, rfl, rfl, rfl⟩
  have hclear : (s.withPort rest).latched = false := Bool.eq_false_of_not_eq_true hlatched
  simp only [if_neg hlatched]
  by_cases hill : IllegalByte c
  · simp only [if_pos hill]
    exact ⟨_, executeByte_of_illegalByte hill hclear, rfl, rfl, rfl⟩
  simp only [if_neg hill]
  by_cases hcheck : OperandCheckFails c s.data
  · simp only [if_pos hcheck]
    refine ⟨_, executeByte_of_operandCheckFails hclear hill hcheck, rfl, ?_, rfl⟩
    split_ifs <;> rfl
  · simp only [if_neg hcheck]
    obtain ⟨rc, hrc⟩ := executeByte_of_operandCheckPasses hclear hill hcheck
    exact ⟨_, hrc, rfl, rfl, rfl⟩

end Sys2Proof.Proofs
end

section
/-!
SUPPORT. What a write can come to, by the location it names, and which transactions leave a latched fault as it is
(60_exceptions.md R80). The proof of O33 from it.
-/

namespace Sys2Proof.Machine

/-- 0x27 is the one address of `SRST` (R28). -/
theorem locate_eq_srst_iff {a : Addr} : locate a = .srst ↔ a = 0x27 := by
  revert a; decide

/-- 0x23 is the one address of `CMD` (R28). -/
theorem locate_eq_cmd_iff {a : Addr} : locate a = .cmd ↔ a = 0x23 := by
  revert a; decide

/-- The addresses that refuse every write (R31). -/
theorem locate_mem_readOnly_or_unmapped_iff {a : Addr} :
    locate a ∈ [Loc.res, .cls, .status, .unmapped] ↔ a = 0x24 ∨ a = 0x25 ∨ a = 0x26 ∨ 0x28 ≤ a.toNat := by
  revert a; decide

/-- The four things a write can come to (R31): a byte stored in a data register, a command, a soft reset, a refusal. -/
theorem hostWrite_cases (a : Addr) (d : Byte) (s : State) :
    (locate a ∉ [Loc.cmd, .srst, .res, .cls, .status, .unmapped] ∧
      ∃ data, hostWrite a d s = acceptWrite (s.withData data)) ∨
    (locate a = .cmd ∧ hostWrite a d s = executeByte d s) ∨
    (locate a = .srst ∧ hostWrite a d s = softReset s) ∨
    (locate a ∈ [Loc.res, .cls, .status, .unmapped] ∧ hostWrite a d s = refuseWrite s) := by
  unfold hostWrite
  cases locate a with
  | ka j => exact .inl ⟨by simp, _, rfl⟩
  | kb j => exact .inl ⟨by simp, _, rfl⟩
  | idx => exact .inl ⟨by decide, _, rfl⟩
  | plen => exact .inl ⟨by decide, _, rfl⟩
  | depth => exact .inl ⟨by decide, _, rfl⟩
  | cmd => exact .inr (.inl ⟨rfl, rfl⟩)
  | res => exact .inr (.inr (.inr ⟨by decide, rfl⟩))
  | cls => exact .inr (.inr (.inr ⟨by decide, rfl⟩))
  | status => exact .inr (.inr (.inr ⟨by decide, rfl⟩))
  | srst => exact .inr (.inr (.inl ⟨rfl, rfl⟩))
  | unmapped => exact .inr (.inr (.inr ⟨by decide, rfl⟩))

/-- No read changes `STATUS` (R30). -/
theorem hostRead_keeps_status {a : Addr} {s t : State} (h : hostRead a s = .next t) : t.status = s.status := by
  unfold hostRead at h
  split at h
  · rw [acceptRead_next.mp h]
    rfl
  · rw [refuseRead_next.mp h]
    rfl

/-- With a fault latched a write to any address but the one of `SRST` leaves `STATUS` as it is (R79, R80). -/
theorem hostWrite_keeps_status_of_latched {a : Addr} {d : Byte} {s t : State} (hl : s.latched = true) (ha : a ≠ 0x27)
    (h : hostWrite a d s = .next t) : t.status = s.status := by
  obtain ⟨-, data, he⟩ | ⟨-, he⟩ | ⟨hloc, -⟩ | ⟨-, he⟩ := hostWrite_cases a d s
  · rw [acceptWrite_next.mp (he.symm.trans h)]
    rfl
  · rw [refuseWrite_next.mp ((he.trans (executeByte_latched d hl)).symm.trans h)]
    rfl
  · exact absurd (locate_eq_srst_iff.mp hloc) ha
  · rw [refuseWrite_next.mp (he.symm.trans h)]
    rfl

/-- A step that takes a latched fault away has served a write to `SRST` or a reset (R80). -/
theorem port_of_step_clears_fault {s t : State} (hs : statusFault s.status = true) (h : step s = .next t)
    (ht : statusFault t.status = false) :
    ∃ rest, (∃ d, s.port = .write 0x27 d :: rest) ∨ s.port = .reset :: rest := by
  have hchanged : t.status ≠ s.status := fun heq => by simp [heq, hs] at ht
  cases hp : s.port with
  | nil =>
    rw [step_idle hp] at h
    cases h
    exact absurd rfl hchanged
  | cons ev rest =>
    rw [step_serves hp] at h
    cases ev with
    | reset => exact ⟨rest, .inr rfl⟩
    | read a => exact absurd (hostRead_keeps_status h) hchanged
    | write a d =>
      by_cases ha : a = 0x27
      · exact ⟨rest, .inl ⟨d, by rw [ha]⟩⟩
      · exact absurd (hostWrite_keeps_status_of_latched (s := s.withPort rest) hs ha h) hchanged

/-- The `STATUS` of either reset has no fault latched (R24, R91). -/
theorem statusFault_zero : statusFault 0 = false := by
  decide

/-- A reset is served without an answer and leaves 0 in `STATUS` (R24, R89). -/
theorem step_reset {s : State} {rest : List HostEvent} (hp : s.port = .reset :: rest) :
    ∃ t : State, step s = .next t ∧ t.answers = s.answers ∧ t.status = 0 :=
  ⟨_, (step_serves hp).trans (hardReset_next.mpr rfl), by simp, by simp⟩

/-- A command that faulted, given again on the same data registers with no fault latched, ends with the same `STATUS`
(R12, R80). -/
theorem exec_status_eq_of_fault {i : Instr} {s s' t u : State} (hs : s.latched = false) (h : exec i s = .next t)
    (ht : statusFault t.status = true) (h' : exec i s' = .next u) (hs' : s'.latched = false)
    (hdata : s'.data = s.data) : u.status = t.status := by
  obtain ⟨c, he, rfl⟩ | ⟨rc, -, rfl⟩ := exec_clear_cases hs h
  · rw [(exec_eq_raiseFault_iff hs').mpr (hdata ▸ he), raiseFault_next] at h'
    rw [h']
    rfl
  · exact absurd ht statusFault_statusDone_ne_true

end Sys2Proof.Machine

namespace Sys2Proof.Proofs

open Sys2Proof.Machine

/-- Settles O33: no other event changes `STATUS` while a fault is latched, and a soft reset keeps the data registers, on
which the effect of the command depends. -/
theorem faultClearedOnlyByReset : Obligations.FaultClearedOnlyByReset := by
  unfold Obligations.FaultClearedOnlyByReset
  refine ⟨fun d s rest hp => step_serves hp, fun s t => port_of_step_clears_fault, fun s t rest hp hstep => ?_,
    fun i s t u hclear hexec hfault hagain => ?_⟩
  · obtain ⟨t', hreset, -, hstatus⟩ := step_reset hp
    obtain rfl : t' = t := Host.Outcome.next.inj (hreset.symm.trans hstep)
    rw [hstatus]
    exact statusFault_zero
  · have hdata : t.data = s.data := exec_keeps_data hexec
    exact exec_status_eq_of_fault hclear hexec hfault hagain statusFault_zero hdata

end Sys2Proof.Proofs
end

section
/-!
SUPPORT. The access errors of 60_exceptions.md R81 as the reads that give no byte and the writes that are refused, and the
proof of O37 from them and from the tests of R78.
-/

namespace Sys2Proof.Machine

/-! ### Reads -/

/-- The locations that give no byte (R30). -/
theorem readLoc_eq_none_iff {s : State} {l : Loc} :
    readLoc s l = none ↔ (l ∈ [Loc.res, .cls] ∧ statusValid s.status = false) ∨ l ∈ [Loc.cmd, .srst, .unmapped] := by
  cases hvalid : statusValid s.status <;> cases l <;> simp [readLoc, State.valid, hvalid]

/-- The addresses of `RES` and `CLS` (R28). -/
theorem locate_mem_results_iff {a : Addr} : locate a ∈ [Loc.res, .cls] ↔ a = 0x24 ∨ a = 0x25 := by
  revert a; decide

/-- The addresses that refuse every read (R30). -/
theorem locate_mem_writeOnly_or_unmapped_iff {a : Addr} :
    locate a ∈ [Loc.cmd, .srst, .unmapped] ↔ a = 0x23 ∨ a = 0x27 ∨ 0x28 ≤ a.toNat := by
  revert a; decide

section
variable {s : State} {a : Addr} {d : Byte} {rest : List HostEvent}

/-- A read is an access error exactly when its location gives no byte (R30, R81). -/
theorem accessError_read_iff : AccessError s (.read a) ↔ readLoc s (locate a) = none := by
  rw [readLoc_eq_none_iff, locate_mem_results_iff, locate_mem_writeOnly_or_unmapped_iff]

/-- A read changes no register of the unit and answers `err = 1` exactly when it is an access error (R30, R81). -/
theorem step_read_answer (hp : s.port = .read a :: rest) :
    ∃ (t : State) (v : Byte) (err : Bool), step s = .next t ∧ t.unit = s.unit ∧
      t.answers = s.answers ++ [Answer.read v err] ∧ (err = true ↔ AccessError s (.read a)) := by
  rw [accessError_read_iff]
  cases hd : readLoc s (locate a) with
  | some v => exact ⟨_, v, false, step_read_of_some hp hd, rfl, rfl, by simp⟩
  | none =>
    obtain ⟨t, v, hstep, hunit, -, hans⟩ := step_read_of_none hp hd
    exact ⟨t, v, true, hstep, hunit, hans, by simp⟩

/-! ### Writes -/

/-- A write to an address other than the one of `CMD` is an access error exactly when its location refuses writes
(R31, R81). -/
theorem accessError_write_iff (ha : a ≠ 0x23) :
    AccessError s (.write a d) ↔ locate a ∈ [Loc.res, .cls, .status, .unmapped] := by
  rw [locate_mem_readOnly_or_unmapped_iff]
  simp only [AccessError, ha, false_and, or_false]

/-- A write to an address other than the one of `CMD` answers `err = 1` exactly when it is an access error, and is then
refused (R31, R81). -/
theorem step_write_answer (ha : a ≠ 0x23) (hp : s.port = .write a d :: rest) :
    ∃ (t : State) (err : Bool), step s = .next t ∧ t.answers = s.answers ++ [Answer.write err] ∧
      (err = true ↔ AccessError s (.write a d)) ∧ (AccessError s (.write a d) → t.unit = s.unit) := by
  rw [accessError_write_iff ha]
  by_cases hloc : locate a ∈ [Loc.res, .cls, .status, .unmapped]
  · exact ⟨_, true, step_write_refused hp hloc, rfl, by simp [hloc], fun _ => rfl⟩
  have hserved : ∃ t : State, step s = .next t ∧ t.answers = s.answers ++ [Answer.write false] := by
    rw [step_serves hp]
    obtain ⟨-, data, he⟩ | ⟨hcmd, -⟩ | ⟨-, he⟩ | ⟨href, -⟩ := hostWrite_cases a d (s.withPort rest)
    · exact ⟨_, he, rfl⟩
    · exact absurd (locate_eq_cmd_iff.mp hcmd) ha
    · exact ⟨_, he, rfl⟩
    · exact absurd href hloc
  obtain ⟨t, hstep, hans⟩ := hserved
  exact ⟨t, false, hstep, hans, by simp [hloc], fun h => absurd h hloc⟩

/-- A write to `CMD` is an access error exactly while a fault is latched (R79, R81). -/
theorem accessError_cmd_iff : AccessError s (.write 0x23 d) ↔ statusFault s.status = true := by
  simp [AccessError]

/-- A write to `CMD` faults exactly when the latch is clear and one of the later tests of R78 fires. -/
theorem commandFaults_cmd_iff :
    CommandFaults s (.write 0x23 d) ↔ statusFault s.status = false ∧ (IllegalByte d ∨ OperandCheckFails d s.data) :=
  and_iff_right rfl

/-- A write to `CMD` answers `err = 1` exactly when it is refused, which changes nothing, or faults, which latches a fault
(R77, R79, R81). -/
theorem step_cmd_answer (hp : s.port = .write 0x23 d :: rest) :
    ∃ (t : State) (err : Bool), step s = .next t ∧ t.answers = s.answers ++ [Answer.write err] ∧
      (err = true ↔ AccessError s (.write 0x23 d) ∨ CommandFaults s (.write 0x23 d)) ∧
      (AccessError s (.write 0x23 d) → t.unit = s.unit) ∧
      (CommandFaults s (.write 0x23 d) → t.status ≠ s.status ∧ statusFault t.status = true) := by
  rw [accessError_cmd_iff, commandFaults_cmd_iff, step_cmd hp]
  cases hlatch : statusFault s.status with
  | true => exact ⟨_, true, executeByte_latched d hlatch, rfl, by simp, fun _ => rfl, by simp⟩
  | false =>
    obtain ⟨hfires, cause, he⟩ | ⟨hpasses, rc, he⟩ :=
      executeByte_clear_cases (c := d) (s := s.withPort rest) hlatch
    · obtain ⟨-, hfault, -, -⟩ := statusFaulted_fields cause
      have hne : statusFaulted cause ≠ s.status := fun heq => by simp [heq, hlatch] at hfault
      exact ⟨_, true, he, rfl, by simpa using hfires, by simp, fun _ => ⟨hne, hfault⟩⟩
    · exact ⟨_, false, he, rfl, by simpa using hpasses, by simp, fun h => absurd h.2 hpasses⟩

end

end Sys2Proof.Machine

namespace Sys2Proof.Proofs

open Sys2Proof.Machine

/-- Settles O37: a reset has no answer, a read and a write to an address other than the one of `CMD` answer by the access
errors alone, and a write to `CMD` by the latch and the tests after it. -/
theorem accessErrorsExactly : Obligations.AccessErrorsExactly := by
  unfold Obligations.AccessErrorsExactly
  intro s ev rest hp
  cases ev with
  | reset =>
    obtain ⟨t, hstep, hans, -⟩ := step_reset hp
    exact ⟨t, hstep, hans, False.elim, False.elim⟩
  | read a =>
    obtain ⟨t, v, err, hstep, hunit, hans, herr⟩ := step_read_answer hp
    exact ⟨t, hstep, ⟨v, err, hans, herr.trans (or_iff_left id).symm⟩, fun _ => hunit, False.elim⟩
  | write a d =>
    by_cases ha : a = 0x23
    · subst ha
      obtain ⟨t, err, hstep, hans, herr, haccess, hfaults⟩ := step_cmd_answer hp
      exact ⟨t, hstep, ⟨err, hans, herr⟩, haccess, hfaults⟩
    · have hnot : ¬ CommandFaults s (.write a d) := fun h => ha h.1
      obtain ⟨t, err, hstep, hans, herr, haccess⟩ := step_write_answer ha hp
      exact ⟨t, hstep, ⟨err, hans, herr.trans (or_iff_left hnot).symm⟩, haccess, fun h => absurd h hnot⟩

end Sys2Proof.Proofs
end

section
/-!
SUPPORT. Decoding as the inverse of encoding (30_encoding.md R43, R48). The proofs of O1 and O2 from it.
-/

namespace Sys2Proof.Machine

/-- The fields that select a command pass the three checks of R49. -/
theorem instr_wellFormed (i : Instr) : i.wellFormed = true := by
  cases i with
  | bitat src fam => exact (Laws.EncodedByte.bitat src fam).1
  | cpl fam => exact (Laws.EncodedByte.cpl fam).1
  | classify fam => exact (Laws.EncodedByte.classify fam).1

/-- A byte that decodes to a command is none of R49. -/
theorem not_illegalByte_of_decode {c : Byte} {i : Instr} (h : decode c = .ok i) : ¬ IllegalByte c := by
  intro hill
  obtain ⟨e, he⟩ := decode_error_of_illegalByte hill
  rw [he] at h
  cases h

/-- A byte that decodes to a command is the byte of that command (R48). -/
theorem encode_of_decode {c : Byte} {i : Instr} (h : decode c = .ok i) : encode i = c := by
  obtain ⟨j, rfl⟩ := exists_encode_eq_of_not_illegalByte (not_illegalByte_of_decode h)
  rw [decode_encode] at h
  cases h
  rfl

end Sys2Proof.Machine

namespace Sys2Proof.Proofs

open Sys2Proof.Machine

/-- Settles O1: a byte that decodes is none of R49, so it is the byte of some command, which is the one it decodes
to. -/
theorem encodeDecodeAgree : Obligations.EncodeDecodeAgree := by
  unfold Obligations.EncodeDecodeAgree
  exact ⟨fun i _ => decode_encode i, fun c i h => ⟨encode_of_decode h, instr_wellFormed i⟩⟩

/-- Settles O2: each byte of the table is the encoding of its command. -/
theorem legalBytesDecode : Obligations.LegalBytesDecode := by
  unfold Obligations.LegalBytesDecode
  exact ⟨decode_encode (.bitat .ka .w32), decode_encode (.bitat .ka .w128), decode_encode (.bitat .kb .w32),
    decode_encode (.bitat .kb .w128), decode_encode (.cpl .w32), decode_encode (.cpl .w128),
    decode_encode (.classify .w32), decode_encode (.classify .w128)⟩

end Sys2Proof.Proofs
end

section
/-!
SUPPORT. What a step can do to `RES`, `CLS` and `STATUS`, said once, and the invariants of 10_state.md R20 as the listed
values of R18 and R19. The proofs of O43, O44, O45 and O46 from them.
-/

namespace Sys2Proof.Machine

/-! ### The invariants as listed values -/

/-- The listed values of `STATUS` are those its invariants allow (R18, R20). -/
theorem mem_legalStatus_iff {v : Byte} :
    v ∈ legalStatus ↔
      statusUpper v = 0 ∧ (statusFault v = true → statusValid v = false ∧ statusCause v ≠ 0) ∧
      (statusFault v = false → statusCause v = 0) := by
  revert v; decide

/-- The listed values of `CLS` are those its invariants allow (R19, R20). -/
theorem mem_legalCls_iff {v : Byte} :
    v ∈ legalCls ↔ clsUpper v = 0 ∧ (clsChild v = true → clsKind v = 3) := by
  revert v; decide

/-- The six invariants are the listed values and the bound on `RES` (R18, R19, R20). -/
theorem inv_iff {s : State} : s.Inv ↔ s.ListedValues ∧ s.res.toNat ≤ 128 := by
  rw [State.ListedValues, mem_legalStatus_iff, mem_legalCls_iff]
  tauto

/-! ### What a step does to the result registers -/

/-- What a step can do to `RES`, `CLS` and `STATUS`: nothing, take a fault, write the effect of a command, clear
them. -/
inductive ResultChange (s t : State) : Prop
  | kept (hres : t.res = s.res) (hcls : t.cls = s.cls) (hstatus : t.status = s.status)
  | faulted (c : Cause) (hres : t.res = s.res) (hcls : t.cls = s.cls) (hstatus : t.status = statusFaulted c)
  | done (i : Instr) (d : DataRegs) (heffect : commandEffect i d = .ok (t.res, t.cls)) (hstatus : t.status = statusDone)
  | cleared (hres : t.res = 0) (hcls : t.cls = 0) (hstatus : t.status = 0)

section
variable {s t : State}

/-- A command is refused, takes a fault or writes its effect (R78). -/
theorem exec_resultChange {i : Instr} (h : exec i s = .next t) : ResultChange s t := by
  cases hl : s.latched with
  | true =>
    rw [exec_latched i hl, refuseWrite_next] at h
    subst h
    exact .kept rfl rfl rfl
  | false =>
    obtain ⟨c, -, rfl⟩ | ⟨rc, he, rfl⟩ := exec_clear_cases hl h
    · exact .faulted c rfl rfl rfl
    · exact .done i s.data he rfl

/-- A written byte is a command or raises ILLEGAL_CMD (R48). -/
theorem executeByte_resultChange {c : Byte} (h : executeByte c s = .next t) : ResultChange s t := by
  unfold executeByte at h
  cases hc : decode c with
  | ok i =>
    rw [hc] at h
    exact exec_resultChange h
  | error e =>
    rw [hc] at h
    obtain ⟨-, rfl⟩ | ⟨-, rfl⟩ := execIllegal_cases h
    · exact .kept rfl rfl rfl
    · exact .faulted .illegalCmd rfl rfl rfl

/-- A write stores a byte, executes one, clears the results or is refused (R31). -/
theorem hostWrite_resultChange {a : Addr} {d : Byte} (h : hostWrite a d s = .next t) : ResultChange s t := by
  obtain ⟨-, data, he⟩ | ⟨-, he⟩ | ⟨-, he⟩ | ⟨-, he⟩ := hostWrite_cases a d s
  · rw [he, acceptWrite_next] at h
    subst h
    exact .kept rfl rfl rfl
  · exact executeByte_resultChange (he.symm.trans h)
  · rw [he, softReset_next] at h
    subst h
    exact .cleared rfl rfl rfl
  · rw [he, refuseWrite_next] at h
    subst h
    exact .kept rfl rfl rfl

/-- A read changes none of the result registers (R30). -/
theorem hostRead_resultChange {a : Addr} (h : hostRead a s = .next t) : ResultChange s t := by
  unfold hostRead at h
  split at h
  · rw [acceptRead_next] at h
    subst h
    exact .kept rfl rfl rfl
  · rw [refuseRead_next] at h
    subst h
    exact .kept rfl rfl rfl

/-- What a step does to the result registers, whatever event it serves (R39). -/
theorem step_resultChange (h : step s = .next t) : ResultChange s t := by
  cases hp : s.port with
  | nil =>
    rw [step_idle hp] at h
    cases h
    exact .kept rfl rfl rfl
  | cons ev rest =>
    rw [step_serves hp] at h
    have hserved : ResultChange (s.withPort rest) t := by
      cases ev with
      | write a d => exact hostWrite_resultChange h
      | read a => exact hostRead_resultChange h
      | reset =>
        obtain rfl := hardReset_next.mp h
        exact .cleared rfl rfl rfl
    -- the port is no result register
    cases hserved with
    | kept hres hcls hstatus => exact .kept hres hcls hstatus
    | faulted c hres hcls hstatus => exact .faulted c hres hcls hstatus
    | done i d heffect hstatus => exact .done i d heffect hstatus
    | cleared hres hcls hstatus => exact .cleared hres hcls hstatus

end

/-! ### The effect of a command is legal -/

/-- A key has at most 128 bits (R4). -/
theorem famBits_le (fam : Fam) : famBits fam ≤ 128 := by
  cases fam <;> decide

/-- The common prefix length fits in `RES` (R62). -/
theorem cpl_le_128 (a b : Key) (fam : Fam) : cpl a b (famBytes fam) ≤ 128 :=
  (cpl_le a b (famBytes fam)).trans (famBits_le fam)

/-- The `CLS` of `BITAT` and `CPL`, and of a reset, is listed (R19). -/
theorem zero_mem_legalCls : (0 : Byte) ∈ legalCls := by
  decide

/-- Every outcome of `CLASS` has a listed `CLS`: `CHILD` is a bit of the key for DESCEND only (R19, R67). -/
theorem clsByte_mem_legalCls (kind : Kind) (ka : Key) (depth : Nat) :
    clsByte kind (childBit kind ka depth) ∈ legalCls := by
  cases kind with
  | diverge => exact (by decide : clsByte .diverge false ∈ legalCls)
  | exact => exact (by decide : clsByte .exact false ∈ legalCls)
  | descend =>
    have hchild (b : Bool) : clsByte .descend b ∈ legalCls := by cases b <;> decide
    exact hchild (bitAt ka depth)

/-- The result of a command is at most 128, with a listed `CLS` (R19, R20). -/
theorem commandEffect_ok_legal {i : Instr} {d : DataRegs} {rc : Byte × Byte} (h : commandEffect i d = .ok rc) :
    rc.1.toNat ≤ 128 ∧ rc.2 ∈ legalCls := by
  have hofNat {m : Nat} (hm : m ≤ 128) : (BitVec.ofNat 8 m).toNat ≤ 128 := by
    rw [BitVec.toNat_ofNat]
    exact (Nat.mod_le _ _).trans hm
  cases i with
  | bitat src fam =>
    have hbit (b : Bool) : (zextBit b).toNat ≤ 128 := by cases b <;> decide
    simp only [commandEffect] at h
    split at h
    · cases h
    · cases h
      exact ⟨hbit _, zero_mem_legalCls⟩
  | cpl fam =>
    cases h
    exact ⟨hofNat (cpl_le_128 _ _ fam), zero_mem_legalCls⟩
  | classify fam =>
    simp only [commandEffect] at h
    split at h
    · cases h
    · cases h
      exact ⟨hofNat ((min_le_left _ _).trans (cpl_le_128 _ _ fam)), clsByte_mem_legalCls _ _ _⟩

/-! ### Steps and runs -/

/-- The `STATUS` of a fault is listed (R18). -/
theorem statusFaulted_mem_legalStatus (c : Cause) : statusFaulted c ∈ legalStatus := by
  cases c <;> decide

/-- The two registers hold listed values after each kind of change. -/
theorem ResultChange.listedValues {s t : State} (h : ResultChange s t) (hs : s.ListedValues) : t.ListedValues := by
  obtain ⟨hstatus, hcls⟩ := hs
  cases h with
  | kept _ hcls' hstatus' => exact ⟨hstatus' ▸ hstatus, hcls' ▸ hcls⟩
  | faulted c _ hcls' hstatus' => exact ⟨hstatus' ▸ statusFaulted_mem_legalStatus c, hcls' ▸ hcls⟩
  | done i d heffect hstatus' => exact ⟨hstatus' ▸ by decide, (commandEffect_ok_legal heffect).2⟩
  | cleared _ hcls' hstatus' => exact ⟨hstatus' ▸ by decide, hcls' ▸ zero_mem_legalCls⟩

/-- `RES` is at most 128 after each kind of change. -/
theorem ResultChange.res_le {s t : State} (h : ResultChange s t) (hs : s.res.toNat ≤ 128) : t.res.toNat ≤ 128 := by
  cases h with
  | kept hres _ _ => exact hres ▸ hs
  | faulted c hres _ _ => exact hres ▸ hs
  | done i d heffect _ => exact (commandEffect_ok_legal heffect).1
  | cleared hres _ _ => exact hres ▸ by decide

/-- A step keeps the invariants (R20). -/
theorem step_keeps_inv {s t : State} (hs : s.Inv) (h : step s = .next t) : t.Inv := by
  obtain ⟨hlisted, hres⟩ := inv_iff.mp hs
  have hchange := step_resultChange h
  exact inv_iff.mpr ⟨hchange.listedValues hlisted, hchange.res_le hres⟩

/-- A step always answers a next state (R100). -/
theorem exists_step_eq_next (s : State) : ∃ t, step s = .next t := by
  cases hp : s.port with
  | nil => exact ⟨s, step_idle hp⟩
  | cons ev rest =>
    obtain ⟨t, hstep, -⟩ := Proofs.accessErrorsExactly s ev rest hp
    exact ⟨t, hstep⟩

/-- A run is a first step and a run from there. -/
theorem run_succ {s t : State} (h : step s = .next t) (n : Nat) : core.run (n + 1) s = core.run n t := by
  have hcore : core.step s = .next t := h
  simp only [Host.Core.run, hcore]

end Sys2Proof.Machine

namespace Sys2Proof.Proofs

open Sys2Proof.Machine

/-- Settles O43: the invariants are the listed values and the bound on `RES`, and each change a step can make to the
result registers keeps both. -/
theorem stepKeepsInvariants : Obligations.StepKeepsInvariants := by
  unfold Obligations.StepKeepsInvariants
  exact fun s t => step_keeps_inv

/-- Settles O44: each change a step can make to the result registers keeps the listed values. -/
theorem stepKeepsListedValues : Obligations.StepKeepsListedValues := by
  unfold Obligations.StepKeepsListedValues
  exact fun s t hs h => (step_resultChange h).listedValues hs

/-- Settles O45: `STATUS`, `CLS` and `RES` are 0, whatever the data registers hold. -/
theorem resetMeetsInvariants : Obligations.ResetMeetsInvariants := by
  unfold Obligations.ResetMeetsInvariants
  have hlisted (data : DataRegs) : (State.afterReset data).ListedValues := by
    rw [State.ListedValues, State.afterReset_status, State.afterReset_cls]
    decide
  have hinv (data : DataRegs) : (State.afterReset data).Inv :=
    inv_iff.mpr ⟨hlisted data, by rw [State.afterReset_res]; decide⟩
  exact ⟨fun data => ⟨hinv data, hlisted data⟩, hinv _, hlisted _⟩

/-- Settles O46, by induction on the number of steps: each one goes on and keeps the invariants and the listed
values. -/
theorem runsStayLegal : Obligations.RunsStayLegal := by
  unfold Obligations.RunsStayLegal
  intro n
  induction n with
  | zero => exact fun s hinv hlisted => ⟨s, rfl, hinv, hlisted⟩
  | succ n ih =>
    intro s hinv hlisted
    obtain ⟨t, hstep⟩ := exists_step_eq_next s
    rw [run_succ hstep]
    exact ih t (stepKeepsInvariants s t hinv hstep) (stepKeepsListedValues s t hlisted hstep)

end Sys2Proof.Proofs
end

section
/-!
SUPPORT. Events and the port (20_memory.md R39): serving an event commutes with exchanging the events still pending. The
proofs of O5 and O4.
-/

namespace Sys2Proof.Machine

/-- An outcome with other events pending in the next state. -/
def Result.withPort (r : Result) (p : List HostEvent) : Result :=
  match r with
  | .next t    => .next (t.withPort p)
  | .fault f   => .fault f
  | .refused f => .refused f

section
variable (s : State) (p : List HostEvent)

/-- A command does not see the events still pending (R39). -/
theorem exec_withPort (i : Instr) : exec i (s.withPort p) = Result.withPort (exec i s) p := by
  cases hl : s.latched with
  | true =>
    rw [exec_latched i hl, exec_latched (s := s.withPort p) i hl]
    rfl
  | false =>
    rw [exec_clear i hl, exec_clear (s := s.withPort p) i hl, State.withPort_data]
    cases commandEffect i s.data with
    | error c => rfl
    | ok rc => rfl

/-- Executing a byte does not see the events still pending (R39). -/
theorem executeByte_withPort (c : Byte) : executeByte c (s.withPort p) = (executeByte c s).withPort p := by
  unfold executeByte
  cases decode c with
  | ok i => exact exec_withPort s p i
  | error e =>
    cases hl : s.latched with
    | true =>
      simp only [execIllegal, unlessLatched_latched hl, unlessLatched_latched (s := s.withPort p) hl]
      rfl
    | false =>
      simp only [execIllegal, unlessLatched_clear hl, unlessLatched_clear (s := s.withPort p) hl]
      rfl

/-- No event is served with sight of a later one (R39). -/
theorem serve_withPort (ev : HostEvent) : serve ev (s.withPort p) = (serve ev s).withPort p := by
  cases ev with
  | reset => rfl
  | read a =>
    simp only [serve, hostRead, readLoc_withPort]
    cases readLoc s (locate a) with
    | some d => rfl
    | none => rfl
  | write a d =>
    simp only [serve, hostWrite]
    cases locate a with
    | cmd => exact executeByte_withPort s p d
    | _ => rfl

end

/-- A step takes exactly the event it serves off the port, and does the same whatever comes after it (R39). -/
theorem step_with_later {s t : State} {ev : HostEvent} {rest : List HostEvent} (hp : s.port = ev :: rest)
    (h : step s = .next t) :
    t.port = rest ∧ ∀ later, step { s with port := ev :: later } = .next (t.withPort later) := by
  have hlater (later : List HostEvent) : step { s with port := ev :: later } = .next (t.withPort later) := by
    calc step { s with port := ev :: later }
        = serve ev (s.withPort later) := step_serves rfl
      _ = (serve ev (s.withPort rest)).withPort later := serve_withPort (s.withPort rest) later ev
      _ = .next (t.withPort later) := by rw [← step_serves hp, h]; rfl
  refine ⟨?_, hlater⟩
  have hsame : ({ s with port := ev :: rest } : State) = s := by rw [← hp]
  have ht : t.withPort rest = t := Host.Outcome.next.inj ((hlater rest).symm.trans (hsame ▸ h))
  rw [← ht, State.withPort_port]

end Sys2Proof.Machine

namespace Sys2Proof.Proofs

open Sys2Proof.Machine

/-- Settles O5: the step and its answer are those of O37, and serving an event commutes with exchanging what is still
pending. -/
theorem eventsServedOneAtATime : Obligations.EventsServedOneAtATime := by
  unfold Obligations.EventsServedOneAtATime
  refine ⟨fun s => step_idle, fun s ev rest hp => ?_⟩
  obtain ⟨t, hstep, hans, -, -⟩ := accessErrorsExactly s ev rest hp
  obtain ⟨hport, hlater⟩ := step_with_later hp hstep
  refine ⟨t, hstep, hport, ?_, ?_, hlater⟩
  · rintro rfl
    exact hans
  · intro hne
    cases ev with
    | write a d =>
      obtain ⟨err, herr, -⟩ := hans
      exact ⟨_, herr⟩
    | read a =>
      obtain ⟨d, err, herr, -⟩ := hans
      exact ⟨_, herr⟩
    | reset => exact absurd rfl hne

/-- Settles O4: a step that serves a write to `CMD` executes the byte, and a byte that decodes runs its command. -/
theorem stepRunsDecodedCommand : Obligations.StepRunsDecodedCommand := by
  unfold Obligations.StepRunsDecodedCommand
  intro s c i rest hp hdecode
  rw [step_cmd hp, ← encode_of_decode hdecode]
  exact executeByte_encode i (s.withPort rest)

end Sys2Proof.Proofs
end

section
/-!
SUPPORT. What every command keeps, and what its outcome depends on: the command and its effect on the data registers
alone (10_state.md R12, R14; 20_memory.md R35; 60_exceptions.md R79). The proofs of O27, O28, O29 and O32, and
of O7 and O14.
-/

namespace Sys2Proof.Machine

/-- Commands with the same effect and no fault latched end with the same `err`, `STATUS` and, on success, `RES` and
`CLS` (R12). -/
theorem exec_agree_of_commandEffect_eq {i : Instr} {s u : State} (hs : s.latched = false) (hu : u.latched = false)
    (heffect : commandEffect i s.data = commandEffect i u.data) :
    ∃ (t v : State) (e : Bool), exec i s = .next t ∧ exec i u = .next v ∧
      t.answers = s.answers ++ [.write e] ∧ v.answers = u.answers ++ [.write e] ∧
      t.status = v.status ∧ (e = false → t.res = v.res ∧ t.cls = v.cls) := by
  rw [exec_clear i hs, exec_clear i hu, heffect]
  cases commandEffect i u.data with
  | error c => exact ⟨_, _, true, rfl, rfl, rfl, rfl, rfl, nofun⟩
  | ok rc => exact ⟨_, _, false, rfl, rfl, rfl, rfl, rfl, fun _ => ⟨rfl, rfl⟩⟩

/-- A command that ends with no fault latched began with none and has succeeded (R79). -/
theorem exec_done_of_not_fault {i : Instr} {s t : State} (h : exec i s = .next t)
    (ht : statusFault t.status = false) :
    ∃ rc, commandEffect i s.data = .ok rc ∧ t = (s.withResult rc.1 rc.2 statusDone).reply (.write false) := by
  cases hl : s.latched with
  | true =>
    rw [exec_latched i hl, refuseWrite_next] at h
    subst h
    cases hl.symm.trans ht
  | false =>
    obtain ⟨c, -, rfl⟩ | hdone := exec_clear_cases hl h
    · obtain ⟨-, hfault, -, -⟩ := statusFaulted_fields c
      cases hfault.symm.trans ht
    · exact hdone

/-- With no fault latched `BITAT` within the key succeeds with the bit at `IDX` (R54). -/
theorem exec_bitat_of_lt {src : Src} {fam : Fam} {s : State} (hl : s.latched = false)
    (h : s.data.idx.toNat < famBits fam) :
    exec (.bitat src fam) s = succeed (zextBit (bitAt (s.data.key src) s.data.idx.toNat)) 0 s :=
  exec_eq_succeed hl (commandEffect_bitat_of_lt h)

/-- A bit as a byte is its number (R10). -/
theorem zextBit_eq_ofNat (b : Bool) : zextBit b = BitVec.ofNat 8 b.toNat := by
  cases b <;> rfl

/-- The key register that `SRC` selects, as a choice between the two (R46). -/
theorem DataRegs.key_eq_ite (d : DataRegs) (src : Src) : d.key src = if src = .ka then d.ka else d.kb := by
  cases src <;> rfl

end Sys2Proof.Machine

namespace Sys2Proof.Proofs

open Sys2Proof.Machine

/-- Settles O27: in each of the three ends of a command. -/
theorem commandFrame : Obligations.CommandFrame := by
  unfold Obligations.CommandFrame
  intro i s t h
  obtain ⟨-, rfl⟩ | ⟨-, c, rfl⟩ | ⟨-, res, cls, rfl⟩ := exec_cases h
  · exact ⟨rfl, rfl, rfl, true, rfl, fun _ => ⟨rfl, rfl⟩⟩
  · exact ⟨rfl, rfl, rfl, true, rfl, fun _ => ⟨rfl, rfl⟩⟩
  · exact ⟨rfl, rfl, rfl, false, rfl, nofun⟩

/-- Settles O28: the effect of a command is a function of the data registers. -/
theorem commandsHaveNoHiddenInput : Obligations.CommandsHaveNoHiddenInput := by
  unfold Obligations.CommandsHaveNoHiddenInput
  intro i s u hdata hs hu
  exact exec_agree_of_commandEffect_eq hs hu (congrArg (commandEffect i) hdata)

/-- Settles O29: the command has succeeded and kept the data registers, so it has the same effect again. -/
theorem sameCommandTwiceSameResult : Obligations.SameCommandTwiceSameResult := by
  unfold Obligations.SameCommandTwiceSameResult
  intro i s t h hclear
  obtain ⟨rc, heffect, rfl⟩ := exec_done_of_not_fault h hclear
  exact ⟨_, exec_eq_succeed hclear heffect, rfl⟩

/-- Settles O32: the latch is tested before the byte and before the command. -/
theorem latchedFaultRefusesCommands : Obligations.LatchedFaultRefusesCommands := by
  unfold Obligations.LatchedFaultRefusesCommands
  exact ⟨fun c s rest hp hl => (step_cmd hp).trans (executeByte_latched (s := s.withPort rest) c hl),
    fun i s hl => exec_latched i hl⟩

/-- Settles O7: `BITAT` within the key succeeds, and its bit is the one of the second formula of R53. -/
theorem bitatReturnsTheBit : Obligations.BitatReturnsTheBit := by
  unfold Obligations.BitatReturnsTheBit
  intro src fam s hbyte hclear hlt
  rw [← famBits_eq] at hlt
  rw [exec_bitat_of_lt hclear hlt, zextBit_eq_ofNat, DataRegs.key_eq_ite, bitAt_toNat _ hbyte]
  rfl

/-- Settles O14: `CPL` has no operand check, so with no fault latched it succeeds. -/
theorem cplReturnsCommonLength : Obligations.CplReturnsCommonLength := by
  unfold Obligations.CplReturnsCommonLength
  intro fam s hclear
  have hbytes : famBytes fam = if fam = .w32 then 4 else 16 := by cases fam <;> rfl
  rw [exec_cpl_clear fam hclear, hbytes]
  rfl

end Sys2Proof.Proofs
end

section
/-!
SUPPORT. Keys as bits: the bits of `bitAt` against the bytes (40_bitat.md R57), and the common prefix length as the one
position up to which the bits agree (41_commonprefixlen.md R63 to R65). The proofs of O10, O11, O17, O18 and O19.
-/

namespace Sys2Proof.Machine

/-! ### Bytes from bits -/

/-- A byte is the sum of its bits with their weights, bit 7 first (R6). -/
theorem toNat_eq_sum_bits (x : Byte) :
    x.toNat = ((List.range 8).map fun b => (x.getLsbD (7 - b)).toNat * 2 ^ (7 - b)).sum := by
  have hlt : x.toNat < 256 := x.isLt
  simp only [← BitVec.testBit_toNat, Nat.toNat_testBit, List.range_succ, List.range_zero, List.nil_append,
    List.cons_append, List.map_cons, List.map_nil, List.sum_cons, List.sum_nil]
  omega

/-- Two keys agree over some bytes exactly when they agree at every position of these bytes (R57). -/
theorem sameBytes_iff_bitAt {a b : Key} {n : Nat} (hn : n ≤ 16) :
    SameBytes a b n ↔ ∀ i, i < 8 * n → bitAt a i = bitAt b i := by
  constructor
  · intro h i hi
    rw [bitAt, bitAt, h (i / 8) (Nat.div_lt_of_lt_mul hi)]
  · intro h j hj
    have hj16 : j < 16 := hj.trans_le hn
    rw [keyByte_eq a hj16, keyByte_eq b hj16]
    refine BitVec.eq_of_getLsbD_eq fun p hp => ?_
    have hp7 : 7 - (7 - p) = p := by omega
    have hbit := h (8 * j + (7 - p)) (by omega)
    rwa [bitAt_mul_add a hj16 (by omega), bitAt_mul_add b hj16 (by omega), hp7] at hbit

/-! ### The common prefix length by bits -/

section
variable {a b : Key} {n : Nat}

/-- Within the first byte where the keys differ, their bits agree before the counted position and differ at it
(R9, R58). -/
theorem bitAt_of_first_difference {f : Nat} (hf : f < 16) (hne : keyByte a f ≠ keyByte b f) :
    (∀ p, p < clz8 (keyByte a f ^^^ keyByte b f) → bitAt a (8 * f + p) = bitAt b (8 * f + p)) ∧
      bitAt a (8 * f + clz8 (keyByte a f ^^^ keyByte b f)) ≠
        bitAt b (8 * f + clz8 (keyByte a f ^^^ keyByte b f)) := by
  rw [keyByte_eq a hf, keyByte_eq b hf] at hne ⊢
  obtain ⟨-, hle, hone, hzero, -⟩ := Proofs.clz8CountsLeadingZeros _ (mt BitVec.xor_eq_zero_iff.mp hne)
  refine ⟨fun p hp => ?_, (getLsbD_xor_iff_bitAt_ne a b hf (by omega)).mp hone⟩
  have hbit := hzero (7 - p) (by omega) (by omega)
  by_contra hdiff
  rw [(getLsbD_xor_iff_bitAt_ne a b hf (by omega)).mpr hdiff] at hbit
  cases hbit

/-- The keys agree at every position below the common prefix length and, if it is less than the width, differ at it
(R63). -/
theorem bitAt_cpl (hn : n ≤ 16) :
    (∀ i, i < cpl a b n → bitAt a i = bitAt b i) ∧
      (cpl a b n < 8 * n → bitAt a (cpl a b n) ≠ bitAt b (cpl a b n)) := by
  by_cases hsame : SameBytes a b n
  · rw [cpl_of_sameBytes hsame]
    exact ⟨(sameBytes_iff_bitAt hn).mp hsame, fun h => absurd h (lt_irrefl _)⟩
  · obtain ⟨f, hf, hbefore, hne⟩ := exists_first_difference hsame
    obtain ⟨hagree, hdiff⟩ := bitAt_of_first_difference (hf.trans_le hn) hne
    rw [cpl_of_first_difference hf hbefore hne]
    refine ⟨fun i hi => ?_, fun _ => hdiff⟩
    by_cases hif : i < 8 * f
    · exact (sameBytes_iff_bitAt (hf.le.trans hn)).mp hbefore i hif
    · have hi' : 8 * f + (i - 8 * f) = i := by omega
      have hbit := hagree (i - 8 * f) (by omega)
      rwa [hi'] at hbit

/-- A length within the width is at most the common prefix length exactly when the keys agree at every position below it
(R63). -/
theorem le_cpl_iff (hn : n ≤ 16) {l : Nat} (hl : l ≤ 8 * n) :
    l ≤ cpl a b n ↔ ∀ i, i < l → bitAt a i = bitAt b i := by
  obtain ⟨hagree, hdiff⟩ := bitAt_cpl (a := a) (b := b) hn
  constructor
  · exact fun h i hi => hagree i (hi.trans_le h)
  · intro h
    by_contra hlt
    rw [not_le] at hlt
    exact hdiff (hlt.trans_le hl) (h _ hlt)

/-- The common prefix length is the one position up to which all bits agree and at which they differ (R63). -/
theorem eq_cpl_iff (hn : n ≤ 16) {c : Nat} (hc : c ≤ 8 * n) :
    c = cpl a b n ↔ (∀ i, i < c → bitAt a i = bitAt b i) ∧ (c < 8 * n → bitAt a c ≠ bitAt b c) := by
  constructor
  · rintro rfl
    exact bitAt_cpl hn
  · rintro ⟨hagree, hdiff⟩
    refine le_antisymm ((le_cpl_iff hn hc).mpr hagree) ?_
    by_contra hlt
    rw [not_le] at hlt
    exact hdiff (hlt.trans_le (cpl_le a b n)) ((bitAt_cpl hn).1 c hlt)

end

/-! ### What the commands read with `FAM = 0` -/

/-- Keys that agree on their first four bytes have the same bits below 32 (R56). -/
theorem bitAt_eq_of_first_four {a b : Key} (h : ∀ j (_ : j < 4), a[j] = b[j]) {i : Nat} (hi : i < 32) :
    bitAt a i = bitAt b i :=
  bitAt_congr (by omega) (h (i / 8) (by omega))

/-- The effect of `BITAT` with `FAM = 0` is the same for the same `IDX` and the same first four bytes (R56). -/
theorem commandEffect_bitat_w32_congr {src : Src} {d e : DataRegs} (hidx : d.idx = e.idx)
    (h : ∀ j (_ : j < 4), (d.key src)[j] = (e.key src)[j]) :
    commandEffect (.bitat src .w32) d = commandEffect (.bitat src .w32) e := by
  by_cases hge : d.idx.toNat ≥ famBits .w32
  · rw [commandEffect_bitat_of_ge hge, commandEffect_bitat_of_ge (hidx ▸ hge)]
  · have hlt : d.idx.toNat < famBits .w32 := not_le.mp hge
    rw [commandEffect_bitat_of_lt hlt, commandEffect_bitat_of_lt (hidx ▸ hlt), ← hidx, bitAt_eq_of_first_four h hlt]

end Sys2Proof.Machine

namespace Sys2Proof.Proofs

open Sys2Proof.Machine

/-- Settles O10: the effect of `BITAT` is the same on both states, an index of 32 and more included. -/
theorem bitat32ReadsFourBytes : Obligations.Bitat32ReadsFourBytes := by
  unfold Obligations.Bitat32ReadsFourBytes
  intro src s u hs hu hidx hbytes
  exact exec_agree_of_commandEffect_eq hs hu (commandEffect_bitat_w32_congr hidx hbytes)

/-- Settles O11: a byte is the sum of its bits, and bytes with the same bits are the same. -/
theorem bitsRebuildTheKey : Obligations.BitsRebuildTheKey := by
  unfold Obligations.BitsRebuildTheKey
  refine ⟨fun k j hj => ?_, fun a b fam => ?_⟩
  · rw [toNat_eq_sum_bits k[j]]
    refine congrArg List.sum (List.map_congr_left fun b hb => ?_)
    rw [bitAt_mul_add k hj (List.mem_range.mp hb)]
  · have hle : famBytes fam ≤ 16 := famBytes_le_sixteen fam
    exact (sameBytes_iff_getElem a b hle).symm.trans (sameBytes_iff_bitAt hle)

/-- Settles O17: agreement below `c` bounds the common prefix length from below, a differing bit at `c` from above. -/
theorem cplCharacterisedByBits : Obligations.CplCharacterisedByBits := by
  unfold Obligations.CplCharacterisedByBits
  exact fun a b fam c hc => eq_cpl_iff (famBytes_le_sixteen fam) hc

/-- Settles O18: the scan over four bytes reads no byte beyond them. -/
theorem cpl32ReadsFourBytes : Obligations.Cpl32ReadsFourBytes := by
  unfold Obligations.Cpl32ReadsFourBytes
  intro s u hs hu hbytes
  have hka : SameBytes u.data.ka s.data.ka 4 :=
    (sameBytes_iff_getElem _ _ (by decide)).mpr fun j _ hj => (hbytes j hj).1.symm
  have hkb : SameBytes u.data.kb s.data.kb 4 :=
    (sameBytes_iff_getElem _ _ (by decide)).mpr fun j _ hj => (hbytes j hj).2.symm
  have hcpl : cpl u.data.ka u.data.kb 4 = cpl s.data.ka s.data.kb 4 := cpl_congr_sameBytes hka hkb
  have hle : cpl s.data.ka s.data.kb 4 ≤ 32 := cpl_le _ _ 4
  refine ⟨_, _, exec_cpl_clear .w32 hs, exec_cpl_clear .w32 hu, congrArg (BitVec.ofNat 8) hcpl.symm, ?_⟩
  exact (BitVec.toNat_ofNat _ _).trans_le ((Nat.mod_le _ _).trans hle)

/-- Settles O19: the bits that mark the common prefix over four bytes mark it over sixteen. -/
theorem cplFamiliesAgree : Obligations.CplFamiliesAgree := by
  unfold Obligations.CplFamiliesAgree
  intro a b
  obtain ⟨hagree, hdiff⟩ := bitAt_cpl (a := a) (b := b) (n := 4) (by decide)
  refine ⟨fun hlt => ?_, fun heq => ?_⟩
  · exact ((eq_cpl_iff (by decide) (by omega)).mpr ⟨hagree, fun _ => hdiff hlt⟩).symm
  · exact (le_cpl_iff (by decide) (by decide)).mpr (heq ▸ hagree)

end Sys2Proof.Proofs
end

section
/-!
SUPPORT. The key registers as the host writes them, byte by byte and in the sequences of 30_encoding.md R52, and the
positions a written byte holds (20_memory.md R32). The proofs of O39 and O40.
-/

namespace Sys2Proof.Machine

/-! ### Bits after a byte is written -/

/-- Byte `j` of a key register with one byte replaced (R31). -/
theorem keyByte_set (k : Key) {i j : Nat} (d : Byte) (hi : i < 16) :
    keyByte (k.set i d) j = if i = j then d else keyByte k j := by
  simp only [keyByte, Vector.getElem?_set]
  split_ifs <;> rfl

/-- The positions of a written byte hold its bits, bit 7 first (R32). -/
theorem bitAt_set_same (k : Key) {j b : Nat} (d : Byte) (hj : j < 16) (hb : b < 8) :
    bitAt (k.set j d) (8 * j + b) = d.getLsbD (7 - b) := by
  rw [bitAt_mul_add _ hj hb, Vector.getElem_set_self]

/-- The positions of the other bytes keep their bits (R32). -/
theorem bitAt_set_of_ne (k : Key) {i j : Nat} (d : Byte) (hj : j < 16) (h : i / 8 ≠ j) :
    bitAt (k.set j d) i = bitAt k i := by
  rw [bitAt, bitAt, keyByte_set k d hj, if_neg h.symm]

/-! ### A key register chosen by `SRC` -/

/-- The data registers with another key in the register that `SRC` selects (R46). -/
def DataRegs.withKey (d : DataRegs) (src : Src) (k : Key) : DataRegs :=
  match src with
  | .ka => { d with ka := k }
  | .kb => { d with kb := k }

/-- The replaced key register holds the new key, and the other one its own. -/
theorem DataRegs.key_withKey (d : DataRegs) (src src' : Src) (k : Key) :
    (d.withKey src k).key src' = if src' = src then k else d.key src' := by
  cases src <;> cases src' <;> rfl

/-- A key register replaced by itself. -/
@[simp] theorem DataRegs.withKey_key (d : DataRegs) (src : Src) : d.withKey src (d.key src) = d := by
  cases src <;> rfl

/-- The later of two replacements stands. -/
@[simp] theorem DataRegs.withKey_withKey (d : DataRegs) (src : Src) (k k' : Key) :
    (d.withKey src k).withKey src k' = d.withKey src k' := by
  cases src <;> rfl

/-- The address of byte 0 of a key register (R28). -/
def keyBase (src : Src) : Nat := if src = .ka then 0x00 else 0x10

/-- A write to byte `j` of a key register replaces that byte (R31). -/
theorem step_write_key {src : Src} {j : Nat} {d : Byte} {s : State} {rest : List HostEvent} (hj : j < 16)
    (hp : s.port = .write (BitVec.ofNat 6 (keyBase src + j)) d :: rest) :
    step s = .next { s with
      port := rest
      data := s.data.withKey src ((s.data.key src).set j d)
      answers := s.answers ++ [.write false] } := by
  cases src with
  | ka =>
    have haddr : (BitVec.ofNat 6 (keyBase .ka + j)).toNat = j := by
      simp only [keyBase, if_true, BitVec.toNat_ofNat]
      omega
    rw [step_write_ka hp (by omega)]
    simp only [haddr]
    rfl
  | kb =>
    have haddr : (BitVec.ofNat 6 (keyBase .kb + j)).toNat = 0x10 + j := by
      simp only [keyBase, reduceCtorEq, if_false, BitVec.toNat_ofNat]
      omega
    rw [step_write_kb hp (by omega)]
    simp only [haddr, Nat.add_sub_cancel_left]
    rfl

/-! ### Ascending writes -/

/-- A key register after bytes are stored in it from byte `j` on, as `writesFrom` writes them (R52). -/
def setKeyBytes (k : Key) (j : Nat) : List Byte → Key
  | []      => k
  | b :: bs => setKeyBytes (setKeyByte k j b) (j + 1) bs

/-- A byte of the register after the bytes are stored: the one stored there, or the old one. -/
theorem keyByte_setKeyBytes (k : Key) (bs : List Byte) {i j : Nat} (hi : i < 16) :
    keyByte (setKeyBytes k j bs) i = if i < j then keyByte k i else bs[i - j]?.getD (keyByte k i) := by
  induction bs generalizing k j with
  | nil => simp [setKeyBytes]
  | cons b bs ih =>
    rw [setKeyBytes, ih, keyByte_setKeyByte k b hi]
    obtain hlt | rfl | hgt := lt_trichotomy i j
    · rw [if_pos (by omega), if_neg (by omega), if_pos hlt]
    · simp
    · have hsucc : i - j = i - (j + 1) + 1 := by omega
      rw [if_neg (by omega), if_neg (by omega), if_neg (by omega), hsucc, List.getElem?_cons_succ]

/-- Sixteen bytes stored from byte 0 on leave exactly the given key (R52). -/
theorem setKeyBytes_toList (k k' : Key) : setKeyBytes k' 0 k.toList = k := by
  ext i hi
  rw [← keyByte_eq _ hi, keyByte_setKeyBytes _ _ hi]
  simp [hi]

/-- Four bytes stored from byte 0 on replace bytes 0 to 3 (R52). -/
theorem setKeyBytes_four (k : Key) (b0 b1 b2 b3 : Byte) :
    setKeyBytes k 0 [b0, b1, b2, b3] = (((k.set 0 b0).set 1 b1).set 2 b2).set 3 b3 := by
  simp [setKeyBytes, setKeyByte_eq_set]

/-- A run of ascending writes to a key register stores their bytes and answers `err = 0` to each (R31, R52). -/
theorem run_writesFrom (src : Src) (bs : List Byte) (j : Nat) (s : State) (rest : List HostEvent)
    (h : j + bs.length ≤ 16) :
    core.run bs.length { s with port := writesFrom (keyBase src + j) bs ++ rest } =
      .next { s with
        port := rest
        data := s.data.withKey src (setKeyBytes (s.data.key src) j bs)
        answers := s.answers ++ List.replicate bs.length (.write false) } := by
  induction bs generalizing j s with
  | nil => simp [Host.Core.run, writesFrom, setKeyBytes]
  | cons b bs ih =>
    rw [List.length_cons] at h
    have hj : j < 16 := by omega
    rw [List.length_cons, run_succ (step_write_key hj rfl)]
    refine (ih (j + 1) { s with
      data := s.data.withKey src ((s.data.key src).set j b)
      answers := s.answers ++ [.write false] } (by omega)).trans ?_
    simp only [DataRegs.key_withKey, if_true, DataRegs.withKey_withKey, setKeyBytes, setKeyByte_eq_set _ b hj,
      List.append_assoc, List.replicate_succ, List.singleton_append]

end Sys2Proof.Machine

namespace Sys2Proof.Proofs

open Sys2Proof.Machine

/-- Settles O39: the write replaces byte `j` of the key register that the address names, and `bitAt` reads one byte. -/
theorem keyBitOrder : Obligations.KeyBitOrder := by
  unfold Obligations.KeyBitOrder
  intro src j d s t rest hj hp hstep
  rw [step_write_key hj hp] at hstep
  cases hstep
  refine ⟨fun b hb => ?_, fun src' i h => ?_⟩
  · rw [DataRegs.key_withKey, if_pos rfl]
    exact bitAt_set_same _ d hj hb
  · rw [DataRegs.key_withKey]
    split_ifs with hsrc
    · subst hsrc
      exact bitAt_set_of_ne _ d hj (h.resolve_left (not_not.mpr rfl))
    · rfl

/-- Settles O40: each load is a run of ascending writes, and sixteen of them fill the register. -/
theorem keyLoadsFillRegister : Obligations.KeyLoadsFillRegister := by
  unfold Obligations.KeyLoadsFillRegister
  intro s k b0 b1 b2 b3 rest
  have hfull (src : Src) := run_writesFrom src k.toList 0 s rest (by simp)
  have hfour (src : Src) := run_writesFrom src [b0, b1, b2, b3] 0 s rest (by simp)
  simp only [Vector.length_toList, setKeyBytes_toList] at hfull
  simp only [setKeyBytes_four] at hfour
  exact ⟨hfull .ka, hfull .kb, hfour .ka, hfour .kb⟩

end Sys2Proof.Proofs
end

section
/-!
SUPPORT. The data registers as locations, what a location reads after a write (20_memory.md R31). The proof of O38.
-/

namespace Sys2Proof.Machine

/-- The locations of the 35 data bytes (R28). -/
def Loc.IsData : Loc → Prop
  | .ka j  => j < 16
  | .kb j  => j < 16
  | .idx   => True
  | .plen  => True
  | .depth => True
  | _      => False

/-- The byte at a location of the data registers (R30). -/
def DataRegs.load (d : DataRegs) : Loc → Byte
  | .ka j  => keyByte d.ka j
  | .kb j  => keyByte d.kb j
  | .idx   => d.idx
  | .plen  => d.plen
  | .depth => d.depth
  | _      => 0

/-- The data registers with a byte stored at a location (R31). -/
def DataRegs.store (d : DataRegs) (v : Byte) : Loc → DataRegs
  | .ka j  => { d with ka := setKeyByte d.ka j v }
  | .kb j  => { d with kb := setKeyByte d.kb j v }
  | .idx   => { d with idx := v }
  | .plen  => { d with plen := v }
  | .depth => { d with depth := v }
  | _      => d

/-- The address of a location of the data registers (R28). -/
def Loc.dataAddr : Loc → Nat
  | .ka j  => j
  | .kb j  => 0x10 + j
  | .idx   => 0x20
  | .plen  => 0x21
  | .depth => 0x22
  | _      => 0

/-- The addresses up to 0x22 are those of the data registers (R28). -/
theorem locate_isData {a : Addr} (h : a.toNat ≤ 0x22) : (locate a).IsData := by
  unfold locate
  split_ifs <;> simp only [Loc.IsData] <;> omega

/-- The location of a data register has its address (R28). -/
theorem dataAddr_locate {a : Addr} (h : a.toNat ≤ 0x22) : (locate a).dataAddr = a.toNat := by
  unfold locate
  split_ifs <;> simp only [Loc.dataAddr] <;> omega

/-- Two addresses of data registers name two locations (R28). -/
theorem locate_eq_locate_iff {a b : Addr} (ha : a.toNat ≤ 0x22) (hb : b.toNat ≤ 0x22) :
    locate a = locate b ↔ a = b := by
  refine ⟨fun h => BitVec.eq_of_toNat_eq ?_, congrArg locate⟩
  rw [← dataAddr_locate ha, h, dataAddr_locate hb]

/-- What is stored at a location of the data registers is there, and what was elsewhere stays (R31). -/
theorem DataRegs.load_store (d : DataRegs) (v : Byte) (l : Loc) {l' : Loc} (h' : l'.IsData) :
    (d.store v l).load l' = if l = l' then v else d.load l' := by
  cases l' with
  | ka j => cases l <;> simp [DataRegs.store, DataRegs.load, keyByte_setKeyByte _ v h']
  | kb j => cases l <;> simp [DataRegs.store, DataRegs.load, keyByte_setKeyByte _ v h']
  | idx => cases l <;> rfl
  | plen => cases l <;> rfl
  | depth => cases l <;> rfl
  | _ => cases h'

/-- A location of the data registers can always be read (R30). -/
theorem readLoc_of_isData (s : State) {l : Loc} (h : l.IsData) : readLoc s l = some (s.data.load l) := by
  cases l with
  | ka j => rfl
  | kb j => rfl
  | idx => rfl
  | plen => rfl
  | depth => rfl
  | _ => cases h

section
variable {s : State} {a : Addr} {d : Byte} {rest : List HostEvent}

/-- A write to a data register stores its byte and answers `err = 0` (R31). -/
theorem step_write_data (hp : s.port = .write a d :: rest) (h : (locate a).IsData) :
    step s = .next { s with
      port := rest, data := s.data.store d (locate a), answers := s.answers ++ [.write false] } := by
  simp only [step_serves hp, serve, hostWrite]
  generalize locate a = l at h ⊢
  cases l with
  | ka j => rfl
  | kb j => rfl
  | idx => rfl
  | plen => rfl
  | depth => rfl
  | _ => cases h

/-- A read of a data register answers its byte with `err = 0` (R30). -/
theorem step_read_data (hp : s.port = .read a :: rest) (h : (locate a).IsData) :
    step s = .next { s with port := rest, answers := s.answers ++ [.read (s.data.load (locate a)) false] } :=
  step_read_of_some hp (readLoc_of_isData s h)

end

end Sys2Proof.Machine

namespace Sys2Proof.Proofs

open Sys2Proof.Machine

/-- Settles O38: the two addresses name the same location exactly when they are equal. -/
theorem dataWriteThenRead : Obligations.DataWriteThenRead := by
  unfold Obligations.DataWriteThenRead
  intro a b d s rest ha hb hp
  have hda := locate_isData ha
  have hdb := locate_isData hb
  refine ⟨_, _, _, _, step_read_data rfl hdb, rfl, step_write_data hp hda, step_read_data rfl hdb, ?_⟩
  simp only [DataRegs.load_store _ d _ hdb, locate_eq_locate_iff ha hb, List.append_assoc, List.singleton_append]

end Sys2Proof.Proofs
end

section
/-!
SUPPORT. The causes a written byte can fault with, by the tests of 60_exceptions.md R78, and what a read gives right
after a reset (70_reset_and_hazards.md R89, R90). The proofs of O41 and O42.
-/

namespace Sys2Proof.Machine

/-- A byte that latches a fault raised ILLEGAL_CMD, INVALID_ARG as a `CLASS` or BOUNDS as a `BITAT`, the last two by a
failed operand check (R78). -/
theorem executeByte_latches_cases {c : Byte} {s t : State} (hl : s.latched = false)
    (h : executeByte c s = .next t) (ht : statusFault t.status = true) :
    ∃ cause, t = (s.withStatus (statusFaulted cause)).reply (.write true) ∧
      (cause = .illegalCmd ∨ OperandCheckFails c s.data ∧
        (cause = .invalidArg ∧ c ∈ ([0x03, 0x0B] : List Byte) ∨
          cause = .bounds ∧ c ∈ ([0x01, 0x09, 0x11, 0x19] : List Byte))) := by
  by_cases hill : IllegalByte c
  · rw [executeByte_of_illegalByte hill hl, raiseFault_next] at h
    exact ⟨_, h, .inl rfl⟩
  by_cases hcheck : OperandCheckFails c s.data
  · rw [executeByte_of_operandCheckFails hl hill hcheck, raiseFault_next] at h
    refine ⟨_, h, .inr ⟨hcheck, ?_⟩⟩
    by_cases hclass : c ∈ ([0x03, 0x0B] : List Byte)
    · exact .inl ⟨if_pos hclass, hclass⟩
    · refine .inr ⟨if_neg hclass, ?_⟩
      simp only [OperandCheckFails, List.mem_cons, List.not_mem_nil, or_false] at hclass hcheck ⊢
      tauto
  · obtain ⟨rc, hrc⟩ := executeByte_of_operandCheckPasses hl hill hcheck
    rw [hrc, succeed_next] at h
    subst h
    exact absurd ht statusFault_statusDone_ne_true

/-- Reads of `IDX`, `PLEN` and `DEPTH` answer the operands (R30). -/
theorem run_read_operands {t : State} {rest : List HostEvent}
    (hp : t.port = .read 0x20 :: .read 0x21 :: .read 0x22 :: rest) :
    core.run 3 t = .next { t with
      port := rest
      answers := t.answers ++ [.read t.data.idx false, .read t.data.plen false, .read t.data.depth false] } := by
  rw [run_succ (step_read_data hp (locate_isData (by decide))),
    run_succ (step_read_data rfl (locate_isData (by decide))),
    run_succ (step_read_data rfl (locate_isData (by decide)))]
  simp only [Host.Core.run, List.append_assoc, List.singleton_append]
  rfl

end Sys2Proof.Machine

namespace Sys2Proof.Proofs

open Sys2Proof.Machine

/-- Settles O41: a fault writes `STATUS` alone, so the operands stand where the command read them. -/
theorem offendingOperandsReadable : Obligations.OffendingOperandsReadable := by
  unfold Obligations.OffendingOperandsReadable
  intro c s t rest hp hclear hstep hfault
  rw [step_cmd hp] at hstep
  obtain ⟨cause, rfl, hcause⟩ := executeByte_latches_cases
    (s := s.withPort (.read 0x20 :: .read 0x21 :: .read 0x22 :: rest)) hclear hstep hfault
  obtain ⟨-, -, hcode, -⟩ := statusFaulted_fields cause
  refine ⟨fun h => ?_, fun h => ?_, run_read_operands rfl⟩
  · obtain rfl | ⟨hcheck, ⟨rfl, -⟩ | ⟨rfl, hbyte⟩⟩ := hcause
    · cases hcode.symm.trans h
    · cases hcode.symm.trans h
    · exact ⟨hbyte, hcheck⟩
  · obtain rfl | ⟨hcheck, ⟨rfl, hbyte⟩ | ⟨rfl, -⟩⟩ := hcause
    · cases hcode.symm.trans h
    · exact ⟨hbyte, hcheck⟩
    · cases hcode.symm.trans h

/-- Settles O42: a reset leaves `STATUS` 0, which has `VALID` clear, so `RES` and `CLS` give no byte. -/
theorem resetClearsStatusAndResults : Obligations.ResetClearsStatusAndResults := by
  unfold Obligations.ResetClearsStatusAndResults
  refine ⟨fun s rest hp => ⟨resetData s.draws, s.draws + 1, step_serves hp⟩, ⟨DataRegs.zero, rfl⟩,
    fun s a rest hunit hp => ?_⟩
  simp only [State.unit, Prod.mk.injEq] at hunit
  obtain ⟨-, -, -, hstatus⟩ := hunit
  by_cases hdata : a.toNat ≤ 0x22
  · refine ⟨_, _, _, step_read_data hp (locate_isData hdata), rfl, ?_, ?_, fun _ => rfl⟩
    · rintro rfl
      exact absurd hdata (by decide)
    · rintro (rfl | rfl)
      · exact absurd hdata (by decide)
      · exact absurd hdata (by decide)
  by_cases hres : a = 0x24 ∨ a = 0x25
  · obtain ⟨t, d, hstep, -, hans⟩ := step_read_result_of_not_valid hp hres (hstatus ▸ rfl)
    refine ⟨t, d, true, hstep, hans, ?_, fun _ => rfl, fun h => absurd h hdata⟩
    rintro rfl
    exact absurd hres (by decide)
  by_cases hst : a = 0x26
  · subst hst
    exact ⟨_, _, _, step_read_of_some hp rfl, rfl, fun _ => ⟨hstatus, rfl⟩, fun h => absurd h hres,
      fun h => absurd h hdata⟩
  · obtain ⟨t, d, err, hstep, -, hans, -⟩ := step_read_answer hp
    exact ⟨t, d, err, hstep, hans, fun h => absurd h hst, fun h => absurd h hres, fun h => absurd h hdata⟩

end Sys2Proof.Proofs
end

section
/-!
SUPPORT. What a `CLASS` that does not fault writes, and the bounded common length of 42_classify.md R66 by the bits it
counts. The proofs of O24, O25, O22, O26 and O23 from it.
-/

namespace Sys2Proof.Machine

/-! ### The bounded common length -/

section
variable {fam : Fam} {d : DataRegs}

/-- The bounded common length is at most the common prefix length (R66). -/
theorem boundedLength_le_cpl : boundedLength d fam ≤ cpl d.ka d.kb (famBytes fam) :=
  min_le_left _ _

/-- The bounded common length is at most either length (R66). -/
theorem boundedLength_le_min : boundedLength d fam ≤ min d.plen.toNat d.depth.toNat :=
  min_le_right _ _

/-- The bounded common length fits in `RES` (R66). -/
theorem toNat_ofNat_boundedLength : (BitVec.ofNat 8 (boundedLength d fam)).toNat = boundedLength d fam := by
  rw [BitVec.toNat_ofNat]
  have := boundedLength_le_cpl.trans (cpl_le_128 d.ka d.kb fam)
  exact Nat.mod_eq_of_lt (by omega)

/-- The keys agree at every position below the bounded common length (R66). -/
theorem bitAt_eq_of_lt_boundedLength {i : Nat} (h : i < boundedLength d fam) : bitAt d.ka i = bitAt d.kb i :=
  (bitAt_cpl (famBytes_le_sixteen fam)).1 i (h.trans_le boundedLength_le_cpl)

/-- Below both lengths the bounded common length is the common prefix length (R66). -/
theorem boundedLength_eq_cpl (h : boundedLength d fam < min d.plen.toNat d.depth.toNat) :
    boundedLength d fam = cpl d.ka d.kb (famBytes fam) :=
  (min_choice _ _).resolve_right h.ne

/-- With lengths within the key, the keys differ at a bounded common length below both (R66). -/
theorem bitAt_ne_at_boundedLength (hp : d.plen.toNat ≤ famBits fam)
    (h : boundedLength d fam < min d.plen.toNat d.depth.toNat) :
    bitAt d.ka (boundedLength d fam) ≠ bitAt d.kb (boundedLength d fam) := by
  have hlt : boundedLength d fam < 8 * famBytes fam := (h.trans_le (min_le_left _ _)).trans_le hp
  rw [boundedLength_eq_cpl h] at hlt ⊢
  exact (bitAt_cpl (famBytes_le_sixteen fam)).2 hlt

/-- The bounded common length reads no bit at or beyond either length (R66). -/
theorem boundedLength_congr {e : DataRegs} (hplen : d.plen = e.plen) (hdepth : d.depth = e.depth)
    (hp : d.plen.toNat ≤ famBits fam)
    (hbits : ∀ i, i < min d.plen.toNat d.depth.toNat →
      bitAt d.ka i = bitAt e.ka i ∧ bitAt d.kb i = bitAt e.kb i) :
    boundedLength d fam = boundedLength e fam := by
  refine eq_of_forall_le_iff fun l => ?_
  rw [boundedLength, boundedLength, ← hplen, ← hdepth]
  refine le_min_iff.trans ((and_congr_left fun hl => ?_).trans le_min_iff.symm)
  have hwidth : l ≤ 8 * famBytes fam := (hl.trans (min_le_left _ _)).trans hp
  rw [le_cpl_iff (famBytes_le_sixteen fam) hwidth, le_cpl_iff (famBytes_le_sixteen fam) hwidth]
  refine forall₂_congr fun i hi => ?_
  obtain ⟨hka, hkb⟩ := hbits i (hi.trans_le hl)
  rw [hka, hkb]

end

/-! ### The outcome -/

section
variable {m plen depth : Nat}

/-- DIVERGE is the outcome below `DEPTH` (R67). -/
theorem outcomeKind_of_lt (h : m < depth) : outcomeKind m plen depth = .diverge :=
  if_pos h

/-- EXACT is the outcome at equal lengths (R67). -/
theorem outcomeKind_of_eq (h : ¬ m < depth) (heq : plen = depth) : outcomeKind m plen depth = .exact := by
  rw [outcomeKind, if_neg h, if_pos heq]

/-- DESCEND is the outcome in the other cases (R67). -/
theorem outcomeKind_of_ne (h : ¬ m < depth) (hne : plen ≠ depth) : outcomeKind m plen depth = .descend := by
  rw [outcomeKind, if_neg h, if_neg hne]

/-- The code of the outcome tells which condition of R67 held. -/
theorem outcomeKind_code_cases (m plen depth : Nat) :
    ((outcomeKind m plen depth).code = 1 ∧ m < depth) ∨
    ((outcomeKind m plen depth).code = 2 ∧ ¬ m < depth ∧ plen = depth) ∨
    ((outcomeKind m plen depth).code = 3 ∧ ¬ m < depth ∧ plen ≠ depth) := by
  by_cases hlt : m < depth
  · exact .inl ⟨by rw [outcomeKind_of_lt hlt]; rfl, hlt⟩
  by_cases heq : plen = depth
  · exact .inr (.inl ⟨by rw [outcomeKind_of_eq hlt heq]; rfl, hlt, heq⟩)
  · exact .inr (.inr ⟨by rw [outcomeKind_of_ne hlt heq]; rfl, hlt, heq⟩)

end

/-! ### What `CLASS` writes -/

/-- A bit can be told from its byte (R10). -/
theorem zextBit_inj {a b : Bool} : zextBit a = zextBit b ↔ a = b := by
  cases a <;> cases b <;> decide

/-- The results of a `CLASS` that does not fault (R68). -/
structure ClassifyResult (fam : Fam) (s t : State) : Prop where
  res_toNat : t.res.toNat = boundedLength s.data fam
  cls_eq : t.cls =
    if boundedLength s.data fam < s.data.depth.toNat then 0x01 else if s.data.plen = s.data.depth then 0x02
    else if bitAt s.data.ka s.data.depth.toNat then 0x07 else 0x03
  clsKind_eq : clsKind t.cls =
    (outcomeKind (boundedLength s.data fam) s.data.plen.toNat s.data.depth.toNat).code
  status_eq : t.status = statusDone
  data_eq : t.data = s.data

section
variable {fam : Fam} {s t : State}

/-- With no fault latched and both lengths within the key `CLASS` writes its results (R68). -/
theorem exec_classify_result (hl : s.latched = false) (hp : s.data.plen.toNat ≤ famBits fam)
    (hd : s.data.depth.toNat ≤ famBits fam) (h : exec (.classify fam) s = .next t) : ClassifyResult fam s t := by
  rw [exec_eq_succeed hl (commandEffect_classify_of_le hp hd), succeed_next] at h
  subst h
  exact {
    res_toNat := toNat_ofNat_boundedLength
    cls_eq := clsByte_outcomeKind _ _ _ _
    clsKind_eq := (clsByte_fields _ _).1
    status_eq := rfl
    data_eq := rfl }

/-- With no fault latched and a length beyond the key `CLASS` writes `STATUS` alone (R69). -/
theorem exec_classify_of_gt (hl : s.latched = false)
    (hgt : s.data.plen.toNat > famBits fam ∨ s.data.depth.toNat > famBits fam)
    (h : exec (.classify fam) s = .next t) : t.status = 0x0A ∧ t.res = s.res ∧ t.cls = s.cls := by
  rw [(exec_eq_raiseFault_iff hl).mpr (commandEffect_classify_of_gt hgt), raiseFault_next] at h
  subst h
  exact ⟨rfl, rfl, rfl⟩

/-- A `CLASS` that succeeds had both lengths within the key (R69). -/
theorem lengths_le_of_exec_classify_done (hl : s.latched = false) (h : exec (.classify fam) s = .next t)
    (hdone : t.status = statusDone) : s.data.plen.toNat ≤ famBits fam ∧ s.data.depth.toNat ≤ famBits fam := by
  by_contra hgt
  rw [not_and_or, not_le, not_le] at hgt
  obtain ⟨hstatus, -, -⟩ := exec_classify_of_gt hl hgt h
  rw [hdone] at hstatus
  exact absurd hstatus (by decide)

namespace ClassifyResult

variable (r : ClassifyResult fam s t)
include r

/-- DIVERGE is the outcome with a bounded common length below `DEPTH` (R67). -/
theorem clsKind_eq_one_iff : clsKind t.cls = 1 ↔ boundedLength s.data fam < s.data.depth.toNat := by
  have hcases := outcomeKind_code_cases (boundedLength s.data fam) s.data.plen.toNat s.data.depth.toNat
  rw [r.clsKind_eq]
  omega

/-- EXACT is the outcome with a bounded common length of both lengths (R67). -/
theorem clsKind_eq_two_iff : clsKind t.cls = 2 ↔
    ¬ boundedLength s.data fam < s.data.depth.toNat ∧ s.data.plen.toNat = s.data.depth.toNat := by
  have hcases := outcomeKind_code_cases (boundedLength s.data fam) s.data.plen.toNat s.data.depth.toNat
  rw [r.clsKind_eq]
  omega

/-- DESCEND is the outcome with a bounded common length of `DEPTH` but not of `PLEN` (R67). -/
theorem clsKind_eq_three_iff : clsKind t.cls = 3 ↔
    ¬ boundedLength s.data fam < s.data.depth.toNat ∧ s.data.plen.toNat ≠ s.data.depth.toNat := by
  have hcases := outcomeKind_code_cases (boundedLength s.data fam) s.data.plen.toNat s.data.depth.toNat
  rw [r.clsKind_eq]
  omega

/-- The `CLS` of DIVERGE (R19). -/
theorem cls_of_lt (h : boundedLength s.data fam < s.data.depth.toNat) : t.cls = 0x01 := by
  rw [r.cls_eq, if_pos h]

/-- The `CLS` of EXACT (R19). -/
theorem cls_of_eq (h : ¬ boundedLength s.data fam < s.data.depth.toNat)
    (heq : s.data.plen.toNat = s.data.depth.toNat) : t.cls = 0x02 := by
  rw [r.cls_eq, if_neg h, if_pos (BitVec.eq_of_toNat_eq heq)]

/-- The `CLS` of DESCEND (R19). -/
theorem cls_of_ne (h : ¬ boundedLength s.data fam < s.data.depth.toNat)
    (hne : s.data.plen.toNat ≠ s.data.depth.toNat) :
    t.cls = if bitAt s.data.ka s.data.depth.toNat then 0x07 else 0x03 := by
  rw [r.cls_eq, if_neg h, if_neg (BitVec.toNat_ne_iff_ne.mp hne)]

/-- A bounded common length of 0 is `RES` 0 (R66). -/
theorem res_eq_zero (h : boundedLength s.data fam = 0) : t.res = 0 :=
  BitVec.eq_of_toNat_eq (r.res_toNat.trans h)

/-- The outcome is one of the three (R67). -/
theorem clsKind_mem : clsKind t.cls ∈ [1, 2, 3] := by
  rw [r.clsKind_eq]
  cases outcomeKind (boundedLength s.data fam) s.data.plen.toNat s.data.depth.toNat with
  | diverge => decide
  | exact => decide
  | descend => decide

/-- After `CLASS` a `BITAT` at a `RES` within the key succeeds with the bit there, on either key (R54, R70). -/
theorem exec_bitat_at_res (src : Src) (hlt : t.res.toNat < famBits fam) :
    ∃ u : State, exec (.bitat src fam) { t with data := { t.data with idx := t.res } } = .next u ∧
      u.status = 0x01 ∧ u.res = zextBit (bitAt (s.data.key src) t.res.toNat) := by
  have hclear : statusFault t.status = false := by rw [r.status_eq]; decide
  have hkey : ({ t.data with idx := t.res } : DataRegs).key src = s.data.key src := by
    rw [r.data_eq]
    cases src <;> rfl
  refine ⟨_, exec_bitat_of_lt hclear hlt, rfl, ?_⟩
  exact congrArg (fun k => zextBit (bitAt k t.res.toNat)) hkey

end ClassifyResult

end

end Sys2Proof.Machine

namespace Sys2Proof.Proofs

open Sys2Proof.Machine

/-- Settles O24: `RES` is the bounded common length, which is the common prefix length where it is below both
lengths. -/
theorem boundedLengthCountsAgreement : Obligations.BoundedLengthCountsAgreement := by
  unfold Obligations.BoundedLengthCountsAgreement
  intro fam s t hclear hp hd h
  rw [(exec_classify_result hclear hp hd h).res_toNat]
  exact ⟨fun i => bitAt_eq_of_lt_boundedLength, boundedLength_le_min, bitAt_ne_at_boundedLength hp⟩

/-- Settles O25: `RES` is the bounded common length, and `KIND` a function of it and the two lengths. -/
theorem classifyIgnoresBitsBeyondLengths : Obligations.ClassifyIgnoresBitsBeyondLengths := by
  unfold Obligations.ClassifyIgnoresBitsBeyondLengths
  intro fam s u hs hu hplen hdepth hp hd hbits
  have hexec := exec_eq_succeed hs (commandEffect_classify_of_le hp hd)
  have hexec' := exec_eq_succeed hu (commandEffect_classify_of_le (hplen ▸ hp) (hdepth ▸ hd))
  have hlen := boundedLength_congr hplen hdepth hp hbits
  refine ⟨_, _, hexec, hexec', congrArg (BitVec.ofNat 8) hlen, ?_⟩
  rw [(exec_classify_result hs hp hd hexec).clsKind_eq,
    (exec_classify_result hu (hplen ▸ hp) (hdepth ▸ hd) hexec').clsKind_eq, hlen, hplen, hdepth]

/-- Settles O26: DIVERGE with `RES` below `PLEN` is a bounded common length below both lengths, at which the keys
differ. -/
theorem divergencePointSeparatesKeys : Obligations.DivergencePointSeparatesKeys := by
  unfold Obligations.DivergencePointSeparatesKeys
  intro fam s t hclear h hkind hdone hlt
  obtain ⟨hp, hd⟩ := lengths_le_of_exec_classify_done hclear h hdone
  have r := exec_classify_result hclear hp hd h
  have hdepth := r.clsKind_eq_one_iff.mp hkind
  have hin : t.res.toNat < famBits fam := hlt.trans_le hp
  obtain ⟨u, hu, hudone, hures⟩ := r.exec_bitat_at_res .ka hin
  obtain ⟨v, hv, hvdone, hvres⟩ := r.exec_bitat_at_res .kb hin
  refine ⟨u, v, hu, hv, hudone, hvdone, ?_⟩
  have hdiff := bitAt_ne_at_boundedLength hp (lt_min (r.res_toNat ▸ hlt) hdepth)
  rw [hures, hvres, r.res_toNat, ne_eq, zextBit_inj]
  exact hdiff

/-- Settles O22: items (a) to (f) from the three conditions of R67 on the bounded common length. -/
theorem classifyConsequences : Obligations.ClassifyConsequences := by
  unfold Obligations.ClassifyConsequences
  intro fam s t hclear hp hd h
  have r := exec_classify_result hclear hp hd h
  have hres := r.res_toNat
  have hm : boundedLength s.data fam =
      min (cpl s.data.ka s.data.kb (famBytes fam)) (min s.data.plen.toNat s.data.depth.toNat) := rfl
  have hdiff := bitAt_ne_at_boundedLength (d := s.data) hp
  simp only [← BitVec.toNat_inj, ne_eq, r.clsKind_eq_one_iff, r.clsKind_eq_two_iff, r.clsKind_eq_three_iff, hres]
  refine ⟨r.clsKind_mem, by omega, by omega, by omega, by omega, fun hlt => ?diverge⟩
  case diverge =>
    have hin : t.res.toNat < famBits fam := by rw [hres]; exact hlt.trans_le hd
    refine ⟨by omega, fun hcd hcp => ⟨by omega, hdiff (by omega)⟩, by omega, by omega, by omega, fun src => ?_⟩
    obtain ⟨u, hu, hdone, -⟩ := r.exec_bitat_at_res src hin
    exact ⟨u, hu, congrArg BitVec.toNat hdone⟩

/-- Settles O23: the rows with both lengths within the key from the three conditions of R67, the row beyond it from the
operand check. -/
theorem classifyCornerCases : Obligations.ClassifyCornerCases := by
  unfold Obligations.ClassifyCornerCases
  intro fam s t hclear h
  have r (hp : s.data.plen.toNat ≤ famBits fam) (hd : s.data.depth.toNat ≤ famBits fam) : ClassifyResult fam s t :=
    exec_classify_result hclear hp hd h
  have hm : boundedLength s.data fam =
      min (cpl s.data.ka s.data.kb (famBytes fam)) (min s.data.plen.toNat s.data.depth.toNat) := rfl
  rw [show 8 * famBytes fam = famBits fam from rfl]
  intro W p d c
  refine ⟨fun hd hp => ?no_lengths, fun hd hp hpW => ?no_depth, fun hp hd hdW => ?no_prefix,
    fun hp hd hc => ?full_equal, fun hp hd hc => ?full_different, fun hd hp => ?full_depth,
    fun hc hlt hdW => ?equal_short_prefix,
    fun hc heq hdW => ?equal_same_lengths, fun hc hlt hpW => ?equal_longer_prefix, fun hbeyond => ?beyond,
    fun hp hd hle => ?beyond_lengths⟩
  case no_lengths =>
    have r := r (by omega) (by omega)
    exact ⟨r.cls_of_eq (by omega) (by omega), r.res_eq_zero (by omega)⟩
  case no_depth =>
    have r := r hpW (by omega)
    have hdepth : s.data.depth.toNat = 0 := hd
    have hbit : bitAt s.data.ka 0 = s.data.ka[0].getLsbD 7 :=
      bitAt_mul_add s.data.ka (j := 0) (p := 0) (by decide) (by decide)
    refine ⟨r.res_eq_zero (by omega), ?_⟩
    rw [r.cls_of_ne (by omega) (by omega), hdepth, hbit]
  case no_prefix =>
    have r := r (by omega) hdW
    exact ⟨r.cls_of_lt (by omega), r.res_eq_zero (by omega)⟩
  case full_equal =>
    have r := r hp.le hd.le
    exact ⟨r.cls_of_eq (by omega) (by omega), r.res_toNat.trans (by omega)⟩
  case full_different =>
    have r := r hp.le hd.le
    exact ⟨r.cls_of_lt (by omega), r.res_toNat.trans (by omega)⟩
  case full_depth => exact (r hp.le hd.le).cls_of_lt (by omega)
  case equal_short_prefix =>
    have r := r (hlt.le.trans hdW) hdW
    exact ⟨r.clsKind_eq_one_iff.mpr (by omega), r.res_toNat.trans (by omega)⟩
  case equal_same_lengths =>
    have r := r (heq.le.trans hdW) hdW
    exact ⟨r.clsKind_eq_two_iff.mpr (by omega), r.res_toNat.trans (by omega)⟩
  case equal_longer_prefix =>
    have r := r hpW (hlt.le.trans hpW)
    exact ⟨r.clsKind_eq_three_iff.mpr (by omega), r.res_toNat.trans (by omega)⟩
  case beyond =>
    have hgt : s.data.plen.toNat > famBits fam ∨ s.data.depth.toNat > famBits fam := by omega
    exact exec_classify_of_gt hclear hgt h
  case beyond_lengths => exact (r hp hd).res_toNat.trans (by omega)

end Sys2Proof.Proofs
end
